-- ==== Sys2Proof/Word.lean ====
section
/-! DEFINITION. The value types of the block: "Every value is an unsigned binary integer" (spec/00_scope.md R11). The
widths of registers and ports (R6, R8) are build parameters, arguments of the step relation (spec/10_state.md R33), so
the value of a timestamp, a width, a hue or an intensity is a `Nat`; `RegistersFit` (Safety.lean) says that each is
within its register's width, and every operation keeps that (log entry 2). -/
namespace Sys2Proof

/-- A code of the control FSM's state register (R8, R24): three bits, as the encodings of R48 have them. -/
abbrev FsmCode := BitVec 3

end Sys2Proof
end

