-- ==== Sys2Proof/Config.lean ====
section
/-! DEFINITION. The build-time parameters (spec/00_scope.md R5 to R8), their default values, the three OPEN
ones, and the free values of the model. Parameters are "fixed at build time, not runtime-reconfigurable"
(10_state.md R33) and are arguments of the step relation (R33, R101): `State.cfg` carries them (log entry 1). -/
namespace Sys2Proof

/-- The build parameters of R5 to R8. There are "exactly three channels" (R4, R5), and the state code has the three
bits of its encoding (R48): those two sizes are types (log entry 2). -/
structure Config where
  /-- `W_MIN` (µs), R5. -/
  wMin : Nat
  /-- `W_MAX` (µs), R5. -/
  wMax : Nat
  /-- `W_NEUTRAL` (µs), R5. -/
  wNeutral : Nat
  /-- `ON_THRESHOLD` (µs), R5. -/
  onThreshold : Nat
  /-- `TS_W`, the width in bits of `time_us` and of every timestamp (R6). -/
  tsW : Nat
  /-- `WIDTH_W`, the width in bits of every width register (R8). -/
  widthW : Nat
  /-- The width in bits of the hue command (R8). -/
  hueW : Nat
  /-- The width in bits of an intensity (R8). -/
  intensityW : Nat
  /-- `CADENCE_US`, R6. -/
  cadenceUs : Nat
  /-- `SYNC_STAGES`, R6. -/
  syncStages : Nat
  /-- `F_CLK`, the clock frequency, OPEN (R6); no rule reads it (R120). -/
  fClk : Nat
  /-- `INT_MAX`, the top of every intensity scale (R7). -/
  intMax : Nat
  /-- `DEADZONE`, R7. -/
  deadzone : Nat
  /-- `HUE_SPAN` (degrees), R7. -/
  hueSpan : Nat
  /-- `SECTOR_DEG` (degrees per band), R7. -/
  sectorDeg : Nat
  /-- `INVERT_COLOR`, OPEN (R7): `true` means the three color outputs are active-low. -/
  invertColor : Bool
  /-- `HUE_LUT`, the table `U` of R93. -/
  hueLut : List Nat
  /-- `DBG_EOL`, the line terminator of the rendered debug line, OPEN (R7, R81). -/
  dbgEol : List Char
deriving DecidableEq, Repr

/-- The default `HUE_LUT`: the exact table, row by row as R93 prints it. -/
def Config.exactLut : List Nat :=
  [0, 4, 8, 12, 17, 21, 25, 29, 34, 38] ++
  [42, 46, 51, 55, 59, 63, 68, 72, 76, 80] ++
  [85, 89, 93, 97, 102, 106, 110, 114, 119, 123] ++
  [127, 131, 136, 140, 144, 148, 153, 157, 161, 165] ++
  [170, 174, 178, 182, 187, 191, 195, 199, 204, 208] ++
  [212, 216, 221, 225, 229, 233, 238, 242, 246, 250] ++
  [255]

/-- The build with the default of every literal (R5 to R8), for a given choice of the three OPEN parameters. -/
def Config.standard (invertColor : Bool) (dbgEol : List Char) (fClk : Nat) : Config where
  wMin := 1000
  wMax := 2000
  wNeutral := 1500
  onThreshold := 1500
  tsW := 32
  widthW := 11
  hueW := 9
  intensityW := 8
  cadenceUs := 20000
  syncStages := 2
  fClk := fClk
  intMax := 255
  deadzone := 20
  hueSpan := 360
  sectorDeg := 60
  invertColor := invertColor
  hueLut := Config.exactLut
  dbgEol := dbgEol

/-- The value of `INVERT_COLOR` in the build of `State.reset`: OPEN (R7, I12), so free (log entry 11). -/
opaque Config.openInvertColor : Bool
/-- The value of `DBG_EOL` in the build of `State.reset`: OPEN (R7, I11), so free (log entry 11). -/
opaque Config.openDbgEol : List Char
/-- The value of `F_CLK` in the build of `State.reset`: OPEN (R6, I13), so free (log entry 11). -/
opaque Config.openFClk : Nat

/-- The build of `State.reset`: default literals, OPEN parameters free. -/
def Config.build : Config :=
  Config.standard Config.openInvertColor Config.openDbgEol Config.openFClk

/-- The values on the input ports in one clock (10_state.md R13, R14, R15). Bit `i-1` of `pwmIn` is channel
`i`'s line as the first synchroniser stage samples it: a metastable sample resolves to either level, and the
bit is that level (R55, log entry 16). -/
structure Inputs where
  /-- `rst`, active-high synchronous reset (R13). -/
  rst : Bool
  /-- `pwm_in[2:0]` (R14). -/
  pwmIn : BitVec 3
  /-- `time_us` (R15): the block reads its low `TS_W` bits (`State.now`). -/
  timeUs : Nat
deriving DecidableEq, Repr, Inhabited

/-- FREE VALUE: the inputs of a clock for which no stimulus is listed: "a free draw in every clock" (R101),
one for each value of the counter `State.clock` (log entry 4). -/
opaque Config.freeInputs : Nat → Inputs

/-- FREE VALUE: what a `HUE_LUT` index outside the table gives (log entry 10); a legal build has none. -/
opaque Config.freeIntensity : Nat → Nat

/-- FREE VALUE: a component of `HSV` for the sector codes 6 and 7, which "a model need not define" (R51, I2);
the arguments are the component and the sector code (log entry 10). -/
opaque Config.freeComponent : Nat → Nat → Nat

end Sys2Proof
end

