-- ==== Sys2Proof/Syntax.lean ====
section
/-! DEFINITION. The operations of the block: one constructor of `Instr` for each row of spec/opcode_table.json,
and the selector words that select them (spec/30_encoding.md). -/
namespace Sys2Proof

/-- The channel index `i ∈ {1,2,3}` (R5 `N_CH`). -/
inductive Channel where
  | ch1
  | ch2
  | ch3
deriving DecidableEq, Repr

/-- The per-clock unit operations (R2). A capture operation names its unit, which `CAPSEL` does not carry
(R45: each unit forms its own). The selector bits an encoding leaves open are operands, so that no selector
bit is lost (log entry 15). -/
inductive Instr where
  /-- CAP_HOLD_LOW, `CAPSEL = 000` (R57). -/
  | capHoldLow (i : Channel)
  /-- CAP_RISE, `CAPSEL = 001` (R58). -/
  | capRise (i : Channel)
  /-- CAP_FALL, `CAPSEL = 010` (R59). -/
  | capFall (i : Channel)
  /-- CAP_HOLD_HIGH, `CAPSEL = 011` (R57). -/
  | capHoldHigh (i : Channel)
  /-- CAP_RESET, `CAPSEL = 1xx` (R107); the open bits are `prev_level[i]` and `lvl[i]`. -/
  | capReset (i : Channel) (prevLevel lvl : Bool)
  /-- S_WAIT, `FSMSEL = 0000` (R79). -/
  | sWait
  /-- S_SNAP, `FSMSEL = 0001` (R68). -/
  | sSnap
  /-- S_DERIVE, `FSMSEL = 0010` (R71). -/
  | sDerive
  /-- S_APPLY, `FSMSEL = 0011` (R76). -/
  | sApply
  /-- S_LOG, `FSMSEL = 0100` (R78). -/
  | sLog
  /-- FSM_RESERVED, `FSMSEL = 0101` (R49). -/
  | fsmReserved5
  /-- FSM_RESERVED, `FSMSEL = 011x` (R49); the open bit is `state[0]`. -/
  | fsmReserved67 (low : Bool)
  /-- FSM_RESET, `FSMSEL = 1xxx` (R107); the open bits are `state`. -/
  | fsmReset (code : FsmCode)
  /-- SECTOR_0, `SECSEL = 000` (R91). -/
  | sector0
  /-- SECTOR_1, `SECSEL = 001` (R91). -/
  | sector1
  /-- SECTOR_2, `SECSEL = 010` (R91). -/
  | sector2
  /-- SECTOR_3, `SECSEL = 011` (R91). -/
  | sector3
  /-- SECTOR_4, `SECSEL = 100` (R91). -/
  | sector4
  /-- SECTOR_5, `SECSEL = 101` (R91). -/
  | sector5
deriving DecidableEq, Repr

/-- A selector word with the unit that forms it (R45): the three formats. -/
inductive Selector where
  /-- `CAPSEL` of capture unit `i`: `[2] = rst`, `[1] = prev_level[i]`, `[0] = lvl[i]`. -/
  | cap (i : Channel) (word : BitVec 3)
  /-- `FSMSEL`: `[3] = rst`, `[2:0] = state`. -/
  | fsm (word : BitVec 4)
  /-- `SECSEL`: `[2:0] = sector`. -/
  | sec (word : BitVec 3)
deriving DecidableEq, Repr

/-- The three selector formats of R45. -/
inductive Format where
  | capsel
  | fsmsel
  | secsel
deriving DecidableEq, Repr

/-- The state codes of R48. -/
abbrev fsmWait : FsmCode := 0b000#3
/-- The code of S_SNAP (R48). -/
abbrev fsmSnap : FsmCode := 0b001#3
/-- The code of S_DERIVE (R48). -/
abbrev fsmDerive : FsmCode := 0b010#3
/-- The code of S_APPLY (R48). -/
abbrev fsmApply : FsmCode := 0b011#3
/-- The code of S_LOG (R48). -/
abbrev fsmLog : FsmCode := 0b100#3

end Sys2Proof
end

