-- ==== Sys2Proof/WellFormed.lean ====
section
/-! DEFINITION. What must hold of a build before the block runs (spec/00_scope.md R9), and which numbers are
selector words. Every term of `Instr` is encodable: its operand types admit exactly the bits the encodings
leave open, so the checks here are about the parameters and about raw words. -/
namespace Sys2Proof

/-- The legal parameter values of R9, clause by clause. -/
def Config.legalR9 (c : Config) : Bool :=
  decide (c.wMin < c.wMax) && decide (c.wMax < 2 ^ c.widthW) &&
  decide (c.wMin ≤ c.wNeutral) && decide (c.wNeutral ≤ c.wMax) &&
  decide (c.wMin ≤ c.onThreshold) && decide (c.onThreshold ≤ c.wMax) &&
  decide (c.deadzone < c.intMax) &&
  decide (0 < c.cadenceUs) && decide (c.cadenceUs < 2 ^ c.tsW) &&
  decide (c.hueSpan = 6 * c.sectorDeg) && decide (1 ≤ c.syncStages)

/-- What the structural widths and the table's shape ask of a build beyond R9 (DEDUCED, log entry 3): intensities and
hues fit their registers (R8), a width fits a timestamp (R52 zero-extends `W_MIN` to `TS_W` bits and takes the low bits
of `elapsed`), the bands are not empty (R88 divides by `SECTOR_DEG`), and `HUE_LUT` has an intensity for every residue
`0..SECTOR_DEG` (R93). -/
def Config.fitsWidths (c : Config) : Bool :=
  decide (c.intMax < 2 ^ c.intensityW) && decide (c.hueSpan < 2 ^ c.hueW) && decide (c.widthW ≤ c.tsW) &&
  decide (0 < c.sectorDeg) && decide (c.hueLut.length = c.sectorDeg + 1) &&
  c.hueLut.all fun u => decide (u < 2 ^ c.intensityW)

/-- A build the model runs; any other is refused (R9, I14). -/
def Config.legal (c : Config) : Bool :=
  c.legalR9 && c.fitsWidths

/-- The width of a format (R45). -/
def Format.width : Format → Nat
  | .capsel => 3
  | .fsmsel => 4
  | .secsel => 3

/-- A number is a word of a format when it fits the format's width (R45: all formats are fixed-width). -/
def Format.isWord (f : Format) (w : Nat) : Bool :=
  decide (w < 2 ^ f.width)

end Sys2Proof
end

