-- ==== Sys2Proof/Decode.lean ====
section
/-! DEFINITION. The decoder and the encoder of the selector words (spec/30_encoding.md R45 to R51 and its opcode
map, section 8), the table of that map, and the host's table words. -/
namespace Sys2Proof

/-- Why a word selects no operation. -/
inductive DecodeError where
  /-- `SECSEL` 110 and 111: they "select no operation" (R51). -/
  | unreachableSector (word : BitVec 3)
  /-- A selector byte whose low nibble does not fit the 3-bit format its unit forms (R45). -/
  | wordTooWide (byte : BitVec 8)
  /-- A selector byte that names no unit (log entry 13). -/
  | unknownUnit (byte : BitVec 8)
deriving DecidableEq, Repr

/-- The three bits `{a, b, c}` (R11: `a` in the high bit). -/
def bits3 (a b c : Bool) : BitVec 3 :=
  BitVec.ofBool a ++ BitVec.ofBool b ++ BitVec.ofBool c

/-- `CAPSEL` decode (R46); reset dominates (R47). -/
def decodeCap (i : Channel) (word : BitVec 3) : Instr :=
  match word.getLsbD 2, word.getLsbD 1, word.getLsbD 0 with
  | false, false, false => .capHoldLow i
  | false, false, true => .capRise i
  | false, true, false => .capFall i
  | false, true, true => .capHoldHigh i
  | true, prevLevel, lvl => .capReset i prevLevel lvl

/-- `FSMSEL` decode (R48, R49); reset dominates (R47). -/
def decodeFsm (word : BitVec 4) : Instr :=
  match word.getLsbD 3, word.getLsbD 2, word.getLsbD 1, word.getLsbD 0 with
  | false, false, false, false => .sWait
  | false, false, false, true => .sSnap
  | false, false, true, false => .sDerive
  | false, false, true, true => .sApply
  | false, true, false, false => .sLog
  | false, true, false, true => .fsmReserved5
  | false, true, true, low => .fsmReserved67 low
  | true, b2, b1, b0 => .fsmReset (bits3 b2 b1 b0)

/-- `SECSEL` decode (R50, R51). -/
def decodeSec (word : BitVec 3) : Except DecodeError Instr :=
  match word.getLsbD 2, word.getLsbD 1, word.getLsbD 0 with
  | false, false, false => .ok .sector0
  | false, false, true => .ok .sector1
  | false, true, false => .ok .sector2
  | false, true, true => .ok .sector3
  | true, false, false => .ok .sector4
  | true, false, true => .ok .sector5
  | true, true, _ => .error (.unreachableSector word)

/-- The operation a selector word selects in its unit: a total decode (spec/30_encoding.md, opening). -/
def decode : Selector → Except DecodeError Instr
  | .cap i word => .ok (decodeCap i word)
  | .fsm word => .ok (decodeFsm word)
  | .sec word => decodeSec word

/-- The selector word of an operation, from the opcode map (spec/30_encoding.md section 8). -/
def encode : Instr → Selector
  | .capHoldLow i => .cap i 0b000#3
  | .capRise i => .cap i 0b001#3
  | .capFall i => .cap i 0b010#3
  | .capHoldHigh i => .cap i 0b011#3
  | .capReset i prevLevel lvl => .cap i (bits3 true prevLevel lvl)
  | .sWait => .fsm 0b0000#4
  | .sSnap => .fsm 0b0001#4
  | .sDerive => .fsm 0b0010#4
  | .sApply => .fsm 0b0011#4
  | .sLog => .fsm 0b0100#4
  | .fsmReserved5 => .fsm 0b0101#4
  | .fsmReserved67 low => .fsm (0b011#3 ++ BitVec.ofBool low)
  | .fsmReset code => .fsm (0b1#1 ++ code)
  | .sector0 => .sec 0b000#3
  | .sector1 => .sec 0b001#3
  | .sector2 => .sec 0b010#3
  | .sector3 => .sec 0b011#3
  | .sector4 => .sec 0b100#3
  | .sector5 => .sec 0b101#3

/-! ### The opcode map as data -/

/-- One row of spec/opcode_table.json: a word `w` of the format belongs to the row when
`w &&& mask = matchBits`. -/
structure OpcodeRow where
  mnemonic : String
  format : Format
  matchBits : Nat
  mask : Nat
deriving DecidableEq, Repr

/-- The rows of the capture format (R46). -/
def captureRows : List OpcodeRow :=
  [⟨"CAP_HOLD_LOW", .capsel, 0b000, 0b111⟩, ⟨"CAP_RISE", .capsel, 0b001, 0b111⟩,
   ⟨"CAP_FALL", .capsel, 0b010, 0b111⟩, ⟨"CAP_HOLD_HIGH", .capsel, 0b011, 0b111⟩,
   ⟨"CAP_RESET", .capsel, 0b100, 0b100⟩]

/-- The rows of the FSM format (R48, R49). -/
def fsmRows : List OpcodeRow :=
  [⟨"S_WAIT", .fsmsel, 0b0000, 0b1111⟩, ⟨"S_SNAP", .fsmsel, 0b0001, 0b1111⟩,
   ⟨"S_DERIVE", .fsmsel, 0b0010, 0b1111⟩, ⟨"S_APPLY", .fsmsel, 0b0011, 0b1111⟩,
   ⟨"S_LOG", .fsmsel, 0b0100, 0b1111⟩, ⟨"FSM_RESERVED", .fsmsel, 0b0101, 0b1111⟩,
   ⟨"FSM_RESERVED", .fsmsel, 0b0110, 0b1110⟩, ⟨"FSM_RESET", .fsmsel, 0b1000, 0b1000⟩]

/-- The rows of the sector format (R50). -/
def sectorRows : List OpcodeRow :=
  [⟨"SECTOR_0", .secsel, 0b000, 0b111⟩, ⟨"SECTOR_1", .secsel, 0b001, 0b111⟩,
   ⟨"SECTOR_2", .secsel, 0b010, 0b111⟩, ⟨"SECTOR_3", .secsel, 0b011, 0b111⟩,
   ⟨"SECTOR_4", .secsel, 0b100, 0b111⟩, ⟨"SECTOR_5", .secsel, 0b101, 0b111⟩]

/-- The opcode map (spec/30_encoding.md section 8). -/
def opcodeRows : List OpcodeRow :=
  captureRows ++ fsmRows ++ sectorRows

/-- Whether a word of a format belongs to a row. -/
def OpcodeRow.covers (r : OpcodeRow) (f : Format) (w : Nat) : Bool :=
  decide (r.format = f) && decide (w &&& r.mask = r.matchBits)

/-- The format of a selector. -/
def Selector.format : Selector → Format
  | .cap _ _ => .capsel
  | .fsm _ => .fsmsel
  | .sec _ => .secsel

/-- A selector's word as a number. -/
def Selector.toNat : Selector → Nat
  | .cap _ word => word.toNat
  | .fsm word => word.toNat
  | .sec word => word.toNat

/-- The table's name of an operation. -/
def Instr.mnemonic : Instr → String
  | .capHoldLow _ => "CAP_HOLD_LOW"
  | .capRise _ => "CAP_RISE"
  | .capFall _ => "CAP_FALL"
  | .capHoldHigh _ => "CAP_HOLD_HIGH"
  | .capReset _ _ _ => "CAP_RESET"
  | .sWait => "S_WAIT"
  | .sSnap => "S_SNAP"
  | .sDerive => "S_DERIVE"
  | .sApply => "S_APPLY"
  | .sLog => "S_LOG"
  | .fsmReserved5 => "FSM_RESERVED"
  | .fsmReserved67 _ => "FSM_RESERVED"
  | .fsmReset _ => "FSM_RESET"
  | .sector0 => "SECTOR_0"
  | .sector1 => "SECTOR_1"
  | .sector2 => "SECTOR_2"
  | .sector3 => "SECTOR_3"
  | .sector4 => "SECTOR_4"
  | .sector5 => "SECTOR_5"

/-! ### Selector bytes and the host's table words

A table word does not say which unit forms it, and the three formats share their words. DESIGN CHOICE (log
entry 13): a selector byte carries the word in bits 3:0 and the unit in bits 7:4 (0 the FSM, 1 to 3 the capture
units, 4 the transform), so an untagged word is read as `FSMSEL`, the only format whose every word decodes. -/

/-- The selector a byte carries; total, rejecting by name. -/
def selectorOfByte (byte : BitVec 8) : Except DecodeError Selector :=
  let word := byte.extractLsb' 0 4
  let word3 := byte.extractLsb' 0 3
  let narrow (x : Selector) : Except DecodeError Selector :=
    if word.getLsbD 3 then .error (.wordTooWide byte) else .ok x
  match (byte.extractLsb' 4 4).toNat with
  | 0 => .ok (.fsm word)
  | 1 => narrow (.cap .ch1 word3)
  | 2 => narrow (.cap .ch2 word3)
  | 3 => narrow (.cap .ch3 word3)
  | 4 => narrow (.sec word3)
  | _ => .error (.unknownUnit byte)

/-- The byte that carries a selector. -/
def Selector.toByte : Selector → BitVec 8
  | .fsm word => 0#4 ++ word
  | .cap .ch1 word => 1#4 ++ 0#1 ++ word
  | .cap .ch2 word => 2#4 ++ 0#1 ++ word
  | .cap .ch3 word => 3#4 ++ 0#1 ++ word
  | .sec word => 4#4 ++ 0#1 ++ word

/-- The operation a selector byte selects; total on any byte. -/
def decodeByte (byte : BitVec 8) : Except DecodeError Instr :=
  match selectorOfByte byte with
  | .ok x => decode x
  | .error e => .error e

/-- The selector byte of an operation. -/
def encodeByte (i : Instr) : BitVec 8 :=
  (encode i).toByte

/-- The selector of a table word of `nbits` bits (log entry 13). A word given with a format's exact width is
read in that format (3 bits: `CAPSEL` of unit 1, 4 bits: `FSMSEL`); a word of whole bytes is a selector byte,
and anything above its first byte must be 0. -/
def tableSelector (nbits w : Nat) : Option Selector :=
  let v := w % 2 ^ nbits
  if nbits = 3 then some (.cap .ch1 (BitVec.ofNat 3 v))
  else if v < 256 then
    match selectorOfByte (BitVec.ofNat 8 v) with
    | .ok x => some x
    | .error _ => none
  else none

/-- The operation the decoder reads from a table word (log entry 13). -/
def decodeTableWord (nbits w : Nat) : Option Instr :=
  match tableSelector nbits w with
  | some x =>
    match decode x with
    | .ok i => some i
    | .error _ => none
  | none => none

end Sys2Proof
end

