-- ==== Sys2Proof/Machine/State.lean ====
section
/-! DEFINITION. The state of the block (spec/10_state.md R18 to R31), the reasons a step can stop, and the state
after reset (spec/70_reset_and_hazards.md R107). -/
namespace Sys2Proof.Machine

/-- A value for each of the three channels (R5: `i ∈ {1,2,3}`). -/
structure PerChannel (α : Type) where
  ch1 : α
  ch2 : α
  ch3 : α
deriving DecidableEq, Repr

/-- The synchroniser `sync[i]` of one channel (R18): at least one flip-flop (R9 `SYNC_STAGES ≥ 1`). `first` is
`sync[i][0]`, and `rest` holds `sync[i][1]` to `sync[i][SYNC_STAGES-1]`, in that order. -/
structure Synchroniser where
  first : Bool
  rest : List Bool
deriving DecidableEq, Repr

/-- The registers of one capture unit (R18 to R23). -/
structure CaptureUnit where
  /-- `sync[i]` (R18). -/
  sync : Synchroniser
  /-- `prev_level[i]` (R19). -/
  prevLevel : Bool
  /-- `rise_ts[i]`, `TS_W` bits (R20). -/
  riseTs : Nat
  /-- `rise_valid[i]` (R21). -/
  riseValid : Bool
  /-- `width[i]`, `WIDTH_W` bits (R22). -/
  width : Nat
  /-- `changed[i]` (R23). -/
  changed : Bool
deriving DecidableEq, Repr

/-- A debug record: the `dbg_*` fields of R17 and R82 in a clock with `dbg_valid = 1`. -/
structure DbgRecord where
  /-- `dbg_ch8`, `WIDTH_W` bits. -/
  ch8 : Nat
  /-- `dbg_ch6`, `WIDTH_W` bits. -/
  ch6 : Nat
  /-- `dbg_ch7`, `WIDTH_W` bits. -/
  ch7 : Nat
  /-- `dbg_hue`, 9 bits at the defaults (R8). -/
  hue : Nat
  /-- `dbg_bright`, 8 bits at the defaults (R8). -/
  bright : Nat
deriving DecidableEq, Repr

/-- Every register of the block, the build it was made with, and its environment. -/
structure State where
  /-- The build parameters: arguments of the step relation, not registers (R33, log entry 1). -/
  cfg : Config
  /-- The three capture units (R18 to R23). -/
  cap : PerChannel CaptureUnit
  /-- `state[2:0]`, the FSM's state register (R24). -/
  state : FsmCode
  /-- `iter_start`, `TS_W` bits (R25). -/
  iterStart : Nat
  /-- `snap_w[1..3]`, `WIDTH_W` bits each (R26). -/
  snapW : PerChannel Nat
  /-- `snap_chg[1..3]` (R27). -/
  snapChg : PerChannel Bool
  /-- `cmd_on` (R28). -/
  cmdOn : Bool
  /-- `cmd_bright`, an intensity (R28). -/
  cmdBright : Nat
  /-- `cmd_hue`, a hue in degrees (R28). -/
  cmdHue : Nat
  /-- `cmd_r`, an intensity (R28). -/
  cmdR : Nat
  /-- `cmd_g`, an intensity (R28). -/
  cmdG : Nat
  /-- `cmd_b`, an intensity (R28). -/
  cmdB : Nat
  /-- `out_on` (R29). -/
  outOn : Bool
  /-- `out_bright`, an intensity (R29). -/
  outBright : Nat
  /-- `out_r`, a logical intensity (R29). -/
  outR : Nat
  /-- `out_g`, a logical intensity (R29). -/
  outG : Nat
  /-- `out_b`, a logical intensity (R29). -/
  outB : Nat
  /-- The input ports in the current clock (R13 to R15); environment, not a register (log entry 4). -/
  inp : Inputs
  /-- The inputs of the clocks to come, the next clock first (R53, R101); environment (log entry 4). -/
  stimulus : List Inputs
  /-- The index of the next free draw of the inputs (R101, log entry 4); the model's own field. -/
  clock : Nat
  /-- The debug records that have left the block, oldest first (D18, log entry 12); the model's own field. -/
  emitted : List DbgRecord
deriving DecidableEq, Repr

/-- The block has no fault: "No operation of `opcode_table.json` has a faulting case" (R96). -/
inductive Fault
deriving DecidableEq, Repr

/-- The refusals of the model's own making (R96). -/
inductive Refusal where
  /-- Raised by `exec` for an operation the model gives no meaning: safe. No arm raises it. -/
  | notModelled (mnemonic : String)
  /-- Raised by `step` for a build that R9 does not allow ("A model should refuse", I14) or that the structural
  widths cannot hold (log entry 3): safe. -/
  | illegalConfiguration
  /-- Raised by `step` for a selector that selects no operation: the sector codes 6 and 7 of R51 (I2: refuse).
  A legal build never forms one. Safe. -/
  | noOperation (why : DecodeError)
deriving DecidableEq, Repr

/-- A capture unit right after reset (R107), its synchroniser holding a settled low line (log entry 5). -/
def CaptureUnit.reset : CaptureUnit where
  sync := ⟨false, [false]⟩
  prevLevel := false
  riseTs := 0
  riseValid := false
  width := 1500
  changed := false

/-- The block right after reset (R107; not before it, log entry 17): the first clock with `rst = 0` (R108) with the lines low and the
timebase at 0 (log entry 5), the build of the defaults with the OPEN parameters free (log entry 11), no
stimulus listed and nothing emitted. -/
def State.reset : State where
  cfg := Config.build
  cap := ⟨CaptureUnit.reset, CaptureUnit.reset, CaptureUnit.reset⟩
  state := fsmSnap
  iterStart := 0
  snapW := ⟨1500, 1500, 1500⟩
  snapChg := ⟨false, false, false⟩
  cmdOn := false
  cmdBright := 0
  cmdHue := 0
  cmdR := 0
  cmdG := 0
  cmdB := 0
  outOn := false
  outBright := 0
  outR := 0
  outG := 0
  outB := 0
  inp := ⟨false, 0, 0⟩
  stimulus := []
  clock := 0
  emitted := []

end Sys2Proof.Machine
end

