-- ==== Sys2Proof/Machine/Ops.lean ====
section
/-! DEFINITION. The named operations over the registers: reading and writing one channel, the synchroniser
(spec/40_capture.md R55), the end of a clock, and the sequencing of a clock's operations. There is no memory
(spec/20_memory.md R34), no exception to take and none to return from (spec/60_exceptions.md R96, R99). -/
namespace Sys2Proof.Machine

/-- The value of channel `i`. -/
def PerChannel.get {α : Type} (p : PerChannel α) : Channel → α
  | .ch1 => p.ch1
  | .ch2 => p.ch2
  | .ch3 => p.ch3

/-- `p` with channel `i`'s value replaced. -/
def PerChannel.set {α : Type} (p : PerChannel α) (i : Channel) (a : α) : PerChannel α :=
  match i with
  | .ch1 => { p with ch1 := a }
  | .ch2 => { p with ch2 := a }
  | .ch3 => { p with ch3 := a }

/-- A function of each channel's value. -/
def PerChannel.map {α β : Type} (f : α → β) (p : PerChannel α) : PerChannel β :=
  ⟨f p.ch1, f p.ch2, f p.ch3⟩

/-- Whether any channel's bit is 1. -/
def PerChannel.any (p : PerChannel Bool) : Bool :=
  p.ch1 || p.ch2 || p.ch3

/-- The bit of `pwm_in` that carries channel `i`: bit `i-1` (R14). -/
def lineOf (x : Inputs) : Channel → Bool
  | .ch1 => x.pwmIn.getLsbD 0
  | .ch2 => x.pwmIn.getLsbD 1
  | .ch3 => x.pwmIn.getLsbD 2

/-- `lvl[i] = sync[i][SYNC_STAGES-1]`, the last stage (R55). -/
def Synchroniser.lvl (y : Synchroniser) : Bool :=
  y.rest.getLastD y.first

/-- One clock of the synchroniser (R55): the first stage samples the line and every other stage takes the
stage before it. -/
def Synchroniser.shift (y : Synchroniser) (line : Bool) : Synchroniser :=
  { first := line, rest := (y.first :: y.rest).take y.rest.length }

/-- The number of stages. -/
def Synchroniser.stages (y : Synchroniser) : Nat :=
  y.rest.length + 1

/-- The synchroniser with its last stage at `v` and every other stage unchanged. -/
def Synchroniser.withLvl (y : Synchroniser) (v : Bool) : Synchroniser :=
  match y.rest with
  | [] => { y with first := v }
  | b :: bs => { y with rest := (b :: bs).dropLast ++ [v] }

/-- The registers of capture unit `i`. -/
def State.unit (s : State) (i : Channel) : CaptureUnit :=
  s.cap.get i

/-- The state with capture unit `i`'s registers replaced. -/
def State.setUnit (s : State) (i : Channel) (u : CaptureUnit) : State :=
  { s with cap := s.cap.set i u }

/-- The low `n` bits of a value: the slice `v[n-1:0]` (R11). -/
def truncate (n v : Nat) : Nat :=
  v % 2 ^ n

/-- `a -_n b`, subtraction modulo `2^n` (R11): `(a - b) mod 2^n`, in `0..2^n-1`. -/
def subMod (n a b : Nat) : Nat :=
  (((a : Int) - b) % ((2 ^ n : Nat) : Int)).toNat

/-- `time_us`, the value on the `TS_W`-bit timebase port in the current clock (R12, R15). -/
def State.now (s : State) : Nat :=
  truncate s.cfg.tsW s.inp.timeUs

/-- `lvl[i]`, the synchronised level in the current clock (R12, R55). -/
def State.lvl (s : State) (i : Channel) : Bool :=
  (s.unit i).sync.lvl

/-- `W_NEUTRAL`, the value of a width register at reset and of an invalid measurement (R22, R59). -/
def State.neutral (s : State) : Nat :=
  s.cfg.wNeutral

/-- Every synchroniser shifts, "including clocks with `rst = 1`" (R55). -/
def State.shiftSyncs (s : State) : State :=
  { s with cap :=
      ⟨{ s.cap.ch1 with sync := s.cap.ch1.sync.shift (lineOf s.inp .ch1) },
       { s.cap.ch2 with sync := s.cap.ch2.sync.shift (lineOf s.inp .ch2) },
       { s.cap.ch3 with sync := s.cap.ch3.sync.shift (lineOf s.inp .ch3) }⟩ }

/-- The inputs of the next clock: the head of the stimulus, or a free draw when none is listed (R101, log
entry 4). -/
def State.drawInputs (s : State) : Inputs :=
  match s.stimulus with
  | [] => Config.freeInputs s.clock
  | x :: _ => x

/-- The environment moves on to the next clock's inputs. -/
def State.nextInputs (s : State) : State :=
  { s with inp := s.drawInputs, stimulus := s.stimulus.tail, clock := s.clock + 1 }

/-- What ends every clock: the synchronisers shift and the next clock's inputs arrive. -/
def State.endOfClock (s : State) : State :=
  s.shiftSyncs.nextInputs

/-- One operation after another: the first stop stands. -/
def andThen (o : Host.Outcome State Fault Refusal) (f : State → Host.Outcome State Fault Refusal) :
    Host.Outcome State Fault Refusal :=
  match o with
  | .next s => f s
  | .fault r => .fault r
  | .refused r => .refused r

end Sys2Proof.Machine
end

