-- ==== Sys2Proof/Machine/Operands.lean ====
section
/-! DEFINITION. Operand assembly (spec/30_encoding.md R52) and the functions the operations compute: the timestamp
delta and the range validator (spec/40_capture.md R60, R61) and the derivations (spec/41_control_loop.md R72 to
R75). All are functions of the build parameters. -/
namespace Sys2Proof.Machine

/-- `clamp(v, lo, hi) = min(max(v, lo), hi)`, over signed integers (R11). -/
def clamp (v lo hi : Int) : Int :=
  min (max v lo) hi

/-- The range validator `inrange(e)`, over the full `TS_W`-bit value, both bounds inclusive (R60). -/
def inrange (c : Config) (e : Nat) : Bool :=
  decide (c.wMin ≤ e) && decide (e ≤ c.wMax)

/-- The timestamp delta `elapsed[i] = time_us -_TS_W rise_ts[i]` (R61). -/
def State.elapsed (s : State) (i : Channel) : Nat :=
  subMod s.cfg.tsW s.now (s.unit i).riseTs

/-- The width CAP_FALL publishes (R59): `elapsed[WIDTH_W-1:0]` of a valid measurement, else `W_NEUTRAL`. -/
def State.published (s : State) (i : Channel) : Nat :=
  if (s.unit i).riseValid && inrange s.cfg (s.elapsed i) then truncate s.cfg.widthW (s.elapsed i)
  else s.neutral

/-- The cadence condition of S_WAIT: `(time_us -_TS_W iter_start) ≥ CADENCE_US` (R67, R79). -/
def State.cadenceDue (s : State) : Bool :=
  decide (s.cfg.cadenceUs ≤ subMod s.cfg.tsW s.now s.iterStart)

/-- `f_onoff` (R72): the comparison is strict. -/
def fOnoff (c : Config) (w : Nat) : Bool :=
  decide (c.onThreshold < w)

/-- `f_map` (R73): a floor division of signed integers, clamped to `0..out_max`. -/
def fMap (c : Config) (w : Nat) (outMax : Nat) : Nat :=
  (clamp (Int.fdiv (((w : Int) - c.wMin) * outMax) ((c.wMax : Int) - c.wMin)) 0 outMax).toNat

/-- `f_bright` (R74), with the dead-zone. -/
def fBright (c : Config) (w : Nat) : Nat :=
  if fMap c w c.intMax ≤ c.deadzone then 0 else fMap c w c.intMax

/-- `f_hue` (R75): degrees `0..HUE_SPAN`, unreduced. -/
def fHue (c : Config) (w : Nat) : Nat :=
  fMap c w c.hueSpan

end Sys2Proof.Machine
end

