-- ==== Sys2Proof/Machine/Capture.lean ====
section
/-! DEFINITION. The meanings of the capture operations (spec/40_capture.md R57 to R59; spec/70_reset_and_hazards.md
R107). Each acts on its own unit only (R63). -/
namespace Sys2Proof.Machine

/-- The update both holds share: `prev_level[i] <- lvl[i]` and nothing else (R57). -/
def State.holdLevel (s : State) (i : Channel) : State :=
  s.setUnit i { s.unit i with prevLevel := s.lvl i }

/-- CAP_HOLD_LOW (R57). -/
def execCapHoldLow (i : Channel) (s : State) : Host.Outcome State Fault Refusal :=
  .next (s.holdLevel i)

/-- CAP_HOLD_HIGH (R57). -/
def execCapHoldHigh (i : Channel) (s : State) : Host.Outcome State Fault Refusal :=
  .next (s.holdLevel i)

/-- CAP_RISE (R58): the pulse start is recorded; "no output change". -/
def execCapRise (i : Channel) (s : State) : Host.Outcome State Fault Refusal :=
  .next (s.setUnit i
    { s.unit i with riseTs := s.now, riseValid := true, prevLevel := true })

/-- CAP_FALL (R59): compute, validate, publish. Its publish strobe sets `changed[i]` (R66, R69). -/
def execCapFall (i : Channel) (s : State) : Host.Outcome State Fault Refusal :=
  .next (s.setUnit i
    { s.unit i with width := s.published i, prevLevel := false, changed := true })

/-- CAP_RESET (R107): the per-channel capture registers; the synchroniser is not reset (log entry 7). -/
def execCapReset (i : Channel) (s : State) : Host.Outcome State Fault Refusal :=
  .next (s.setUnit i
    { s.unit i with prevLevel := s.lvl i, riseTs := 0, riseValid := false, width := s.neutral, changed := false })

end Sys2Proof.Machine
end

