-- ==== Sys2Proof/Machine/Color.lean ====
section
/-! DEFINITION. The color transform `HSV` (spec/42_color_transform.md R86 to R93), through the `HUE_LUT` table, and
the inversion stage (R95). `INT_MAX` stands where the spec prints 255, its default (log entry 18). -/
namespace Sys2Proof.Machine

/-- Three intensities. -/
structure Rgb where
  r : Nat
  g : Nat
  b : Nat
deriving DecidableEq, Repr

/-- Hue reduction `h' = h mod HUE_SPAN` (R87). -/
def hueReduced (c : Config) (h : Nat) : Nat :=
  h % c.hueSpan

/-- The sector `s = h' div SECTOR_DEG`, the `SECSEL` word (R88, R50). -/
def sectorOf (c : Config) (h : Nat) : BitVec 3 :=
  BitVec.ofNat 3 (hueReduced c h / c.sectorDeg)

/-- The residue `ρ = h' mod SECTOR_DEG` (R88). -/
def residueOf (c : Config) (h : Nat) : Nat :=
  hueReduced c h % c.sectorDeg

/-- `U[n]` of R93; an index outside the table is free (log entry 10). -/
def lutAt (c : Config) (n : Nat) : Nat :=
  (c.hueLut[n]?).getD (Config.freeIntensity n)

/-- The `X` component's intensity `xi` in a sector, at residue `ρ` (R93): `U[ρ]` where the sector is even and
`U[SECTOR_DEG - ρ]` where it is odd. -/
def xiAt (c : Config) (sector ρ : Nat) : Nat :=
  if sector % 2 = 0 then lutAt c ρ else lutAt c (c.sectorDeg - ρ)

/-- The `C` component's intensity, the top of the scale (R90). -/
def chroma (c : Config) : Nat :=
  c.intMax

/-- The rows of R91, by sector code, at residue `ρ`; the codes 6 and 7 "cannot occur" and are free (R51, I2, log entry 10). -/
def sectorRow (c : Config) (sector ρ : Nat) : Rgb :=
  match sector with
  | 0 => ⟨chroma c, xiAt c 0 ρ, 0⟩
  | 1 => ⟨xiAt c 1 ρ, chroma c, 0⟩
  | 2 => ⟨0, chroma c, xiAt c 2 ρ⟩
  | 3 => ⟨0, xiAt c 3 ρ, chroma c⟩
  | 4 => ⟨xiAt c 4 ρ, 0, chroma c⟩
  | 5 => ⟨chroma c, 0, xiAt c 5 ρ⟩
  | n => ⟨Config.freeComponent 0 n, Config.freeComponent 1 n, Config.freeComponent 2 n⟩

/-- `HSV(h)` (R86): the row its sector selects, at its residue. -/
def hsv (c : Config) (h : Nat) : Rgb :=
  sectorRow c (sectorOf c h).toNat (residueOf c h)

/-- The inversion stage of one color line (R95): `INT_MAX - v` when the line is active-low. -/
def invert (c : Config) (v : Nat) : Nat :=
  if c.invertColor then c.intMax - v else v

end Sys2Proof.Machine
end

