-- ==== Sys2Proof/Machine/Flags.lean ====
section
/-! DEFINITION. The block's flags: `changed[i]`, `snap_chg[i]` and `rise_valid[i]` are all it has (spec/10_state.md
R31). The publish strobe (spec/40_capture.md R66) and the snapshot arbiter (spec/41_control_loop.md R69). -/
namespace Sys2Proof.Machine

/-- The publish strobe `cap_pub[i]` (R66). -/
def State.capPub (s : State) (i : Channel) : Bool :=
  !s.inp.rst && (s.unit i).prevLevel && !s.lvl i

/-- The snapshot arbiter: the single next-state equation of `changed[i]` (R69). -/
def changedNext (rst pub snap changed : Bool) : Bool :=
  if rst then false
  else if pub then true
  else if snap then false
  else changed

/-- The clear of `changed[i]` by S_SNAP: "unless `cap_pub[i] = 1` in this clock" (R68). -/
def State.snapClear (s : State) (i : Channel) : CaptureUnit :=
  { s.unit i with changed := if s.capPub i then (s.unit i).changed else false }

/-- Whether the snapshot holds a set flag (R78). -/
def State.anyChanged (s : State) : Bool :=
  s.snapChg.any

end Sys2Proof.Machine
end

