-- ==== Sys2Proof/Machine/Ports.lean ====
section
/-! DEFINITION. The output ports, functions of the state alone (spec/00_scope.md R10; spec/10_state.md R16, R17;
spec/41_control_loop.md R77, R80, R82; spec/42_color_transform.md R95), and the text of a debug record
(spec/41_control_loop.md R81). -/
namespace Sys2Proof.Machine

/-- The debug-record fields, "defined in every clock" (R82). -/
def State.dbgRecord (s : State) : DbgRecord where
  ch8 := s.snapW.ch1
  ch6 := s.snapW.ch2
  ch7 := s.snapW.ch3
  hue := s.cmdHue
  bright := s.cmdBright

/-- `dbg_valid` (R80). -/
def State.dbgValid (s : State) : Bool :=
  !s.inp.rst && decide (s.state = fsmLog) && s.anyChanged

/-- `led_on` (R77). -/
def State.ledOn (s : State) : Bool := s.outOn

/-- `led_bright` (R77): never inverted. -/
def State.ledBright (s : State) : Nat := s.outBright

/-- `led_r` (R95). -/
def State.ledR (s : State) : Nat := invert s.cfg s.outR

/-- `led_g` (R95). -/
def State.ledG (s : State) : Nat := invert s.cfg s.outG

/-- `led_b` (R95). -/
def State.ledB (s : State) : Nat := invert s.cfg s.outB

/-- The output ports of R16 and R17. -/
structure Outputs where
  ledOn : Bool
  ledBright : Nat
  ledR : Nat
  ledG : Nat
  ledB : Nat
  dbgValid : Bool
  dbg : DbgRecord
deriving DecidableEq, Repr

/-- The output ports in the current clock. -/
def State.outputs (s : State) : Outputs where
  ledOn := s.ledOn
  ledBright := s.ledBright
  ledR := s.ledR
  ledG := s.ledG
  ledB := s.ledB
  dbgValid := s.dbgValid
  dbg := s.dbgRecord

/-- The character of a decimal digit. -/
def digitChar (d : Nat) : Char :=
  Char.ofNat (48 + d)

/-- The decimal digits of `n`, most significant first, put before `tail`; `fuel` bounds the number of digits
after the first. -/
def decDigits : Nat → Nat → List Char → List Char
  | 0, n, tail => digitChar (n % 10) :: tail
  | fuel + 1, n, tail =>
    if n < 10 then digitChar n :: tail
    else decDigits fuel (n / 10) (digitChar (n % 10) :: tail)

/-- `dec(v)` (R81): the decimal numeral, without sign, padding or leading zeros. -/
def dec (n : Nat) : List Char :=
  decDigits n n []

/-- The rendered debug line (R81), a requirement on the external serial channel (log entry 20). -/
def renderLine (c : Config) (r : DbgRecord) : List Char :=
  ['C', 'H', '8', '='] ++ dec r.ch8 ++ [' ', 'C', 'H', '6', '='] ++ dec r.ch6 ++
  [' ', 'C', 'H', '7', '='] ++ dec r.ch7 ++ [' ', 'H', 'u', 'e', '='] ++ dec r.hue ++
  [' ', 'B', 'r', 'i', 'g', 'h', 't', 'L', 'E', 'D', '='] ++ dec r.bright ++ c.dbgEol

end Sys2Proof.Machine
end

