-- ==== Sys2Proof/Machine/ControlLoop.lean ====
section
/-! DEFINITION. The meanings of the control FSM's operations (spec/41_control_loop.md R67 to R79; spec/30_encoding.md
R49; spec/70_reset_and_hazards.md R107). Only the FSM writes `state`, `iter_start`, `snap_*`, `cmd_*` and `out_*`
(spec/20_memory.md R41). -/
namespace Sys2Proof.Machine

/-- S_WAIT (R79): leave for S_SNAP at the cadence boundary, else write nothing. -/
def execSWait (s : State) : Host.Outcome State Fault Refusal :=
  .next (if s.cadenceDue then { s with state := fsmSnap } else s)

/-- S_SNAP (R68): copy widths and flags, start the iteration, clear each flag that no publish sets in this
clock. -/
def execSSnap (s : State) : Host.Outcome State Fault Refusal :=
  .next { s with
    snapW := s.cap.map CaptureUnit.width
    snapChg := s.cap.map CaptureUnit.changed
    iterStart := s.now
    state := fsmDerive
    cap := ⟨s.snapClear .ch1, s.snapClear .ch2, s.snapClear .ch3⟩ }

/-- S_DERIVE (R71). The color triple is `HSV(h)`, which the transform's operation of the same clock writes too
(log entry 8). -/
def execSDerive (s : State) : Host.Outcome State Fault Refusal :=
  .next { s with
    cmdOn := fOnoff s.cfg s.snapW.ch1
    cmdBright := fBright s.cfg s.snapW.ch2
    cmdHue := fHue s.cfg s.snapW.ch3
    cmdR := (hsv s.cfg (fHue s.cfg s.snapW.ch3)).r
    cmdG := (hsv s.cfg (fHue s.cfg s.snapW.ch3)).g
    cmdB := (hsv s.cfg (fHue s.cfg s.snapW.ch3)).b
    state := fsmApply }

/-- S_APPLY (R76): all five outputs change in one clock. -/
def execSApply (s : State) : Host.Outcome State Fault Refusal :=
  .next { s with
    outOn := s.cmdOn
    outBright := s.cmdBright
    outR := s.cmdR
    outG := s.cmdG
    outB := s.cmdB
    state := fsmLog }

/-- S_LOG (R78): emit one record if any flag was set; the FSM does not wait for the sink (R85). -/
def execSLog (s : State) : Host.Outcome State Fault Refusal :=
  .next { s with
    emitted := if s.anyChanged then s.emitted ++ [s.dbgRecord] else s.emitted
    state := fsmWait }

/-- The recovery from a reserved state code: `state <- S_WAIT` and no other write (R49, log entry 9). -/
def State.recover (s : State) : State :=
  { s with state := fsmWait }

/-- FSM_RESERVED for the code 101 (R49). -/
def execFsmReserved5 (s : State) : Host.Outcome State Fault Refusal :=
  .next s.recover

/-- FSM_RESERVED for the codes 110 and 111 (R49). -/
def execFsmReserved67 (s : State) : Host.Outcome State Fault Refusal :=
  .next s.recover

/-- FSM_RESET (R107): the control loop's registers. The capture registers are CAP_RESET's (log entry 7). -/
def execFsmReset (s : State) : Host.Outcome State Fault Refusal :=
  .next { s with
    snapW := ⟨s.neutral, s.neutral, s.neutral⟩
    snapChg := ⟨false, false, false⟩
    state := fsmSnap
    iterStart := 0
    cmdOn := false
    cmdBright := 0
    cmdHue := 0
    cmdR := 0
    cmdG := 0
    cmdB := 0
    outOn := false
    outBright := 0
    outR := 0
    outG := 0
    outB := 0 }

end Sys2Proof.Machine
end

