-- ==== Sys2Proof/Machine/Transform.lean ====
section
/-! DEFINITION. The meanings of the sector operations (spec/42_color_transform.md R91): each writes its row of the
table for the hue `f_hue(snap_w[3])` (R86) into `cmd_r`, `cmd_g`, `cmd_b`, and nothing else. -/
namespace Sys2Proof.Machine

/-- `(cmd_r, cmd_g, cmd_b) <- x` (R91). -/
def State.setColor (s : State) (x : Rgb) : State :=
  { s with cmdR := x.r, cmdG := x.g, cmdB := x.b }

/-- The hue the transform reads in the S_DERIVE clock (R71, R86). -/
def State.hueIn (s : State) : Nat :=
  fHue s.cfg s.snapW.ch3

/-- SECTOR_0 (R91): `(C, X, 0)`. -/
def execSector0 (s : State) : Host.Outcome State Fault Refusal :=
  .next (s.setColor (sectorRow s.cfg 0 (residueOf s.cfg s.hueIn)))

/-- SECTOR_1 (R91): `(X, C, 0)`. -/
def execSector1 (s : State) : Host.Outcome State Fault Refusal :=
  .next (s.setColor (sectorRow s.cfg 1 (residueOf s.cfg s.hueIn)))

/-- SECTOR_2 (R91): `(0, C, X)`. -/
def execSector2 (s : State) : Host.Outcome State Fault Refusal :=
  .next (s.setColor (sectorRow s.cfg 2 (residueOf s.cfg s.hueIn)))

/-- SECTOR_3 (R91): `(0, X, C)`. -/
def execSector3 (s : State) : Host.Outcome State Fault Refusal :=
  .next (s.setColor (sectorRow s.cfg 3 (residueOf s.cfg s.hueIn)))

/-- SECTOR_4 (R91): `(X, 0, C)`. -/
def execSector4 (s : State) : Host.Outcome State Fault Refusal :=
  .next (s.setColor (sectorRow s.cfg 4 (residueOf s.cfg s.hueIn)))

/-- SECTOR_5 (R91): `(C, 0, X)`. -/
def execSector5 (s : State) : Host.Outcome State Fault Refusal :=
  .next (s.setColor (sectorRow s.cfg 5 (residueOf s.cfg s.hueIn)))

end Sys2Proof.Machine
end

