-- ==== Sys2Proof/Machine/Dispatch.lean ====
section
/-! DEFINITION. One arm per constructor of `Instr`, each one direct call of that operation's meaning. -/
namespace Sys2Proof.Machine

def exec (i : Instr) (s : State) : Host.Outcome State Fault Refusal :=
  match i with
  | .capHoldLow c => Sys2Proof.Machine.execCapHoldLow c s
  | .capRise c => Sys2Proof.Machine.execCapRise c s
  | .capFall c => Sys2Proof.Machine.execCapFall c s
  | .capHoldHigh c => Sys2Proof.Machine.execCapHoldHigh c s
  | .capReset c _ _ => Sys2Proof.Machine.execCapReset c s
  | .sWait => Sys2Proof.Machine.execSWait s
  | .sSnap => Sys2Proof.Machine.execSSnap s
  | .sDerive => Sys2Proof.Machine.execSDerive s
  | .sApply => Sys2Proof.Machine.execSApply s
  | .sLog => Sys2Proof.Machine.execSLog s
  | .fsmReserved5 => Sys2Proof.Machine.execFsmReserved5 s
  | .fsmReserved67 _ => Sys2Proof.Machine.execFsmReserved67 s
  | .fsmReset _ => Sys2Proof.Machine.execFsmReset s
  | .sector0 => Sys2Proof.Machine.execSector0 s
  | .sector1 => Sys2Proof.Machine.execSector1 s
  | .sector2 => Sys2Proof.Machine.execSector2 s
  | .sector3 => Sys2Proof.Machine.execSector3 s
  | .sector4 => Sys2Proof.Machine.execSector4 s
  | .sector5 => Sys2Proof.Machine.execSector5 s

end Sys2Proof.Machine
end

