-- ==== Sys2Proof/Machine/Clock.lean ====
section
/-! DEFINITION. One clock of the block: the selectors each unit forms from start-of-clock values (spec/30_encoding.md
R45 to R51), the operations they select, and the end of the clock. The operations run one after another in an order
that gives the simultaneous effect of spec/00_scope.md R10 (log entry 6): the FSM reads widths and flags before any
capture unit writes them, and a publish lands after the snapshot's clear (spec/41_control_loop.md R69). -/
namespace Sys2Proof.Machine

/-- `CAPSEL` of unit `i`: `{rst, prev_level[i], lvl[i]}` (R45, R56). -/
def State.capsel (s : State) (i : Channel) : BitVec 3 :=
  bits3 s.inp.rst (s.unit i).prevLevel (s.lvl i)

/-- `FSMSEL`: `{rst, state}` (R45). -/
def State.fsmsel (s : State) : BitVec 4 :=
  BitVec.ofBool s.inp.rst ++ s.state

/-- `SECSEL`: the sector of the hue the transform reads (R45, R88). -/
def State.secsel (s : State) : BitVec 3 :=
  sectorOf s.cfg s.hueIn

/-- Whether the transform's sector operation takes effect: "each S_DERIVE clock" (R45), never in reset (R47). -/
def State.inDerive (s : State) : Bool :=
  !s.inp.rst && decide (s.state = fsmDerive)

/-- The selectors of a clock: the FSM's, the transform's in an S_DERIVE clock, and each capture unit's. -/
def State.selectors (s : State) : List Selector :=
  .fsm s.fsmsel ::
    ((if s.inDerive then [.sec s.secsel] else []) ++
      [.cap .ch1 (s.capsel .ch1), .cap .ch2 (s.capsel .ch2), .cap .ch3 (s.capsel .ch3)])

/-- Run the operation a selector selects; a selector that selects none is refused (R51, I2). -/
def runSelector (x : Selector) (s : State) : Host.Outcome State Fault Refusal :=
  match decode x with
  | .ok i => exec i s
  | .error e => .refused (.noOperation e)

/-- Run the selected operations of one clock. -/
def runSelectors : List Selector → State → Host.Outcome State Fault Refusal
  | [], s => .next s
  | x :: xs, s => andThen (runSelector x s) (runSelectors xs)

/-- One clock of a legal build; an illegal build is refused (R9, I14, log entry 22). -/
def clockStep (s : State) : Host.Outcome State Fault Refusal :=
  if s.cfg.legal then andThen (runSelectors s.selectors s) (fun t => .next t.endOfClock)
  else .refused .illegalConfiguration

/-- The smallest width above `W_MIN` whose hue lies in a sector (R73, R75, R88), for `placeSelector`. -/
def widthOfSector (c : Config) (sector : Nat) : Nat :=
  c.wMin + (sector * c.sectorDeg * (c.wMax - c.wMin) + c.hueSpan - 1) / c.hueSpan

/-- Set what a unit's selector is formed from, so that the next clock forms this one (log entry 14). -/
def State.placeSelector (s : State) : Selector → State
  | .cap i word =>
    { s.setUnit i { s.unit i with
        prevLevel := word.getLsbD 1
        sync := (s.unit i).sync.withLvl (word.getLsbD 0) } with
      inp := { s.inp with rst := word.getLsbD 2 } }
  | .fsm word =>
    { s with inp := { s.inp with rst := word.getLsbD 3 }, state := word.extractLsb' 0 3 }
  | .sec word =>
    { s with
      inp := { s.inp with rst := false }
      state := fsmDerive
      snapW := { s.snapW with ch3 := widthOfSector s.cfg word.toNat } }

end Sys2Proof.Machine
end

