-- ==== Sys2Proof/Machine/Step.lean ====
section
/-! DEFINITION. The step: one clock (spec/00_scope.md R10; spec/60_exceptions.md R101). The block fetches nothing
(spec/20_memory.md R43); a table word is placed where the next clock forms its selector from (log entry 14). -/
namespace Sys2Proof.Machine

/-- One rising edge of `clk`, with the inputs `State.inp`. -/
def step (s : State) : Host.Outcome State Fault Refusal :=
  clockStep s

/-- The state whose next clock forms the selector of a table word (log entries 13 and 14); a word that selects
no operation changes nothing. -/
def State.withFetchWord (s : State) (nbits w : Nat) : State :=
  match tableSelector nbits w with
  | some x => s.placeSelector x
  | none => s

end Sys2Proof.Machine
end

