-- ==== Sys2Proof/Machine/Stimulus.lean ====
section
/-! DEFINITION. The stimulus notation, the block's "assembly" (spec/30_encoding.md R53, R54): a program of input
stimuli and the inputs it gives the block clock by clock. The harness runs `clk` at 1 MHz, so `time_us` in clock
`k` is `T0 + k`, and drives the synchronised level `lvl[i]`: the line changes `SYNC_STAGES` clocks earlier. -/
namespace Sys2Proof.Machine

/-- A line of a stimulus program after its clock index (R53, R54). -/
inductive StimulusLine where
  /-- `@<k> rst=<0|1>`: `rst` takes this value from clock `k` onward. -/
  | rst (k : Nat) (v : Bool)
  /-- `@<k> ch<i>=<0|1>`: `lvl[i]` takes this value from clock `k` onward. -/
  | ch (i : Channel) (k : Nat) (v : Bool)
  /-- `PULSE ch<i> @<k> w=<n>` (R54). -/
  | pulse (i : Channel) (k n : Nat)
deriving DecidableEq, Repr

/-- A stimulus program: the `config` line, the lines, and `run <k>` (R53). -/
structure StimulusProgram where
  invertColor : Bool
  t0 : Nat
  lines : List StimulusLine
  run : Nat
deriving DecidableEq, Repr

/-- A pseudo-stimulus expands to two `ch` lines (R54). -/
def StimulusLine.expand : StimulusLine → List StimulusLine
  | .pulse i k n => [.ch i k true, .ch i (k + n) false]
  | l => [l]

/-- The settings of channel `i` in a list of lines, as (clock, value) pairs. -/
def levelSettings (i : Channel) : List StimulusLine → List (Nat × Bool)
  | [] => []
  | .ch j k v :: ls => if j = i then (k, v) :: levelSettings i ls else levelSettings i ls
  | .pulse j k n :: ls =>
    if j = i then (k, true) :: (k + n, false) :: levelSettings i ls else levelSettings i ls
  | .rst _ _ :: ls => levelSettings i ls

/-- The settings of `rst`. -/
def resetSettings : List StimulusLine → List (Nat × Bool)
  | [] => []
  | .rst k v :: ls => (k, v) :: resetSettings ls
  | .ch _ _ _ :: ls => resetSettings ls
  | .pulse _ _ _ :: ls => resetSettings ls

/-- The value in clock `k` of a port with the given settings: that of the latest setting at or before `k`, the
later line where two name one clock, and 0 before any (log entry 19). `best` is the latest setting so far. -/
def settledValue (k : Nat) (best : Nat × Bool) : List (Nat × Bool) → Bool
  | [] => best.2
  | (j, v) :: rest =>
    if j ≤ k ∧ best.1 ≤ j then settledValue k (j, v) rest else settledValue k best rest

/-- `lvl[i]` in clock `k` of a program. -/
def StimulusProgram.level (p : StimulusProgram) (i : Channel) (k : Nat) : Bool :=
  settledValue k (0, false) (levelSettings i p.lines)

/-- `rst` in clock `k` of a program. -/
def StimulusProgram.resetAt (p : StimulusProgram) (k : Nat) : Bool :=
  settledValue k (0, false) (resetSettings p.lines)

/-- The input nibble `IN(k) = {rst, lvl[3], lvl[2], lvl[1]}` (R53). -/
def StimulusProgram.nibble (p : StimulusProgram) (k : Nat) : BitVec 4 :=
  BitVec.ofBool (p.resetAt k) ++ BitVec.ofBool (p.level .ch3 k) ++ BitVec.ofBool (p.level .ch2 k) ++
    BitVec.ofBool (p.level .ch1 k)

/-- `time_us` in clock `k`: `T0 + k` modulo `2^32` (R53), the default `TS_W`. -/
def StimulusProgram.time (p : StimulusProgram) (k : Nat) : Nat :=
  (p.t0 + k) % 2 ^ 32

/-- The inputs of clock `k`, for a synchroniser of `stages` stages: the lines lead their levels (R53, R55). -/
def StimulusProgram.inputs (p : StimulusProgram) (stages k : Nat) : Inputs where
  rst := p.resetAt k
  pwmIn := bits3 (p.level .ch3 (k + stages)) (p.level .ch2 (k + stages)) (p.level .ch1 (k + stages))
  timeUs := p.time k

/-- The levels of clocks `k+1, k+2, …, k+n`, last first: the stages before the last one. -/
def StimulusProgram.pending (p : StimulusProgram) (i : Channel) (k : Nat) : Nat → List Bool
  | 0 => []
  | n + 1 => p.level i (k + n + 1) :: p.pending i k n

/-- A synchroniser of `stages` stages whose outputs in clocks `0, 1, …` are the program's levels. -/
def StimulusProgram.sync (p : StimulusProgram) (i : Channel) (stages : Nat) : Synchroniser :=
  match p.pending i 0 (stages - 1) with
  | [] => { first := p.level i 0, rest := [] }
  | b :: bs => { first := b, rest := bs ++ [p.level i 0] }

/-- The inputs of the `n` clocks from clock `k` on. -/
def StimulusProgram.inputsFrom (p : StimulusProgram) (stages k : Nat) : Nat → List Inputs
  | 0 => []
  | n + 1 => p.inputs stages k :: p.inputsFrom stages (k + 1) n

/-- `F_CLK` in the harness: "the harness runs `clk` at 1 MHz" (R53). -/
def harnessFClk : Nat :=
  1000000

/-- The state in which a program's clock 0 begins: the default build with the program's `INVERT_COLOR`, clocked at
1 MHz, its inputs listed through clock `run`, and the registers of `State.reset`, which a program's own reset clocks
overwrite (R110, log entry 19). -/
def StimulusProgram.start (p : StimulusProgram) : State :=
  let c := Config.standard p.invertColor Config.openDbgEol harnessFClk
  let u (i : Channel) : CaptureUnit := { CaptureUnit.reset with sync := p.sync i c.syncStages }
  { State.reset with
    cfg := c
    cap := ⟨u .ch1, u .ch2, u .ch3⟩
    inp := p.inputs c.syncStages 0
    stimulus := p.inputsFrom c.syncStages 1 p.run }

/-- The state in which a program's clock `k` begins. -/
def StimulusProgram.stateAt (p : StimulusProgram) (k : Nat) : Host.Outcome State Fault Refusal :=
  Sys2Proof.core.run k p.start

/-- The output ports in a program's clock `k`. -/
def StimulusProgram.outputsAt (p : StimulusProgram) (k : Nat) : Option Outputs :=
  match p.stateAt k with
  | .next s => some s.outputs
  | .fault _ => none
  | .refused _ => none

/-- `run <k>`: "evaluate through the end of clock k" (R53), clocks `0` to `k`. -/
def StimulusProgram.evaluate (p : StimulusProgram) : Host.Outcome State Fault Refusal :=
  p.stateAt (p.run + 1)

end Sys2Proof.Machine
end

