-- ==== Sys2Proof/Safety.lean ====
section
/-! DEFINITION. What counts as a good state and a good run of the block: the invariants of the spec's prose, the
timebase contract (spec/10_state.md R15), and the relation of a run. -/
namespace Sys2Proof.Machine

/-- The build has the default of every literal; the OPEN parameters are anything (R5 to R7, R9). -/
def StandardBuild (c : Config) : Prop :=
  c = Config.standard c.invertColor c.dbgEol c.fClk

/-- One of the five defined state codes (R48). -/
def DefinedCode (code : FsmCode) : Prop :=
  code = fsmWait ∨ code = fsmSnap ∨ code = fsmDerive ∨ code = fsmApply ∨ code = fsmLog

/-- A width within `[W_MIN, W_MAX]` (R30). -/
def WidthInRange (c : Config) (w : Nat) : Prop :=
  c.wMin ≤ w ∧ w ≤ c.wMax

/-- The width invariant of R30: every published width and every snapshot width is in range. -/
def WidthsInRange (s : State) : Prop :=
  ∀ i, WidthInRange s.cfg (s.unit i).width ∧ WidthInRange s.cfg (s.snapW.get i)

/-- A color whose components fit their registers (R8). -/
def Rgb.Fits (c : Config) (x : Rgb) : Prop :=
  x.r < 2 ^ c.intensityW ∧ x.g < 2 ^ c.intensityW ∧ x.b < 2 ^ c.intensityW

/-- Every register holds a value of its width (R8, R18 to R29). -/
structure RegistersFit (s : State) : Prop where
  riseTs : ∀ i, (s.unit i).riseTs < 2 ^ s.cfg.tsW
  width : ∀ i, (s.unit i).width < 2 ^ s.cfg.widthW
  iterStart : s.iterStart < 2 ^ s.cfg.tsW
  snapW : ∀ i, s.snapW.get i < 2 ^ s.cfg.widthW
  cmdBright : s.cmdBright < 2 ^ s.cfg.intensityW
  cmdHue : s.cmdHue < 2 ^ s.cfg.hueW
  cmdColor : Rgb.Fits s.cfg ⟨s.cmdR, s.cmdG, s.cmdB⟩
  outBright : s.outBright < 2 ^ s.cfg.intensityW
  outColor : Rgb.Fits s.cfg ⟨s.outR, s.outG, s.outB⟩

/-- The state invariant: a legal build, a defined state code (R49), every register within its width (R8), widths in
range (R30), synchronisers of `SYNC_STAGES` stages (R18), and no rise time without a rise (R20, R21). -/
structure Inv (s : State) : Prop where
  legal : s.cfg.legal = true
  code : DefinedCode s.state
  fits : RegistersFit s
  widths : WidthsInRange s
  stages : ∀ i, (s.unit i).sync.stages = s.cfg.syncStages
  riseTs : ∀ i, (s.unit i).riseValid = false → (s.unit i).riseTs = 0

/-- The command registers are those the snapshot derives (R71). -/
structure CommandsMatch (s : State) : Prop where
  on : s.cmdOn = fOnoff s.cfg s.snapW.ch1
  bright : s.cmdBright = fBright s.cfg s.snapW.ch2
  hue : s.cmdHue = fHue s.cfg s.snapW.ch3
  color : (⟨s.cmdR, s.cmdG, s.cmdB⟩ : Rgb) = hsv s.cfg (fHue s.cfg s.snapW.ch3)

/-- The output registers hold the commands (R76). -/
structure OutputsMatch (s : State) : Prop where
  on : s.outOn = s.cmdOn
  bright : s.outBright = s.cmdBright
  color : (⟨s.outR, s.outG, s.outB⟩ : Rgb) = ⟨s.cmdR, s.cmdG, s.cmdB⟩

/-- The order snapshot, derive, actuate, log (R67): after S_DERIVE the commands are the snapshot's, and after
S_APPLY the outputs are the commands', until the next snapshot. -/
structure InPhase (s : State) : Prop where
  code : DefinedCode s.state
  derived : s.state = fsmApply ∨ s.state = fsmLog ∨ s.state = fsmWait → CommandsMatch s
  applied : s.state = fsmLog ∨ s.state = fsmWait → OutputsMatch s

/-- An intensity the dead-zone allows: off, or above `DEADZONE` and within the scale (R74). -/
def BrightAllowed (c : Config) (b : Nat) : Prop :=
  b = 0 ∨ c.deadzone < b ∧ b ≤ c.intMax

/-- A color the block may show: dark (R107), or the color of some hue (R86, R91). -/
def ColorAllowed (c : Config) (x : Rgb) : Prop :=
  x = ⟨0, 0, 0⟩ ∨ ∃ h : Nat, h ≤ c.hueSpan ∧ x = hsv c h

/-- What the actuators may be given: commands and outputs within the derivations' ranges. -/
structure ActuationAllowed (s : State) : Prop where
  legal : s.cfg.legal = true
  hue : s.cmdHue ≤ s.cfg.hueSpan
  cmdBright : BrightAllowed s.cfg s.cmdBright
  outBright : BrightAllowed s.cfg s.outBright
  cmdColor : ColorAllowed s.cfg ⟨s.cmdR, s.cmdG, s.cmdB⟩
  outColor : ColorAllowed s.cfg ⟨s.outR, s.outG, s.outB⟩

/-- The timebase contract from one clock to the next: `time_us` advances by less than half its range (R15). -/
def TimebaseContract (s t : State) : Prop :=
  subMod s.cfg.tsW t.now s.now < 2 ^ (s.cfg.tsW - 1)

/-- Unit `i` alone may differ: every other unit and every field outside the capture units is unchanged (R63). -/
def OnlyUnit (i : Channel) (s t : State) : Prop :=
  (∀ j, j ≠ i → t.unit j = s.unit j) ∧ { t with cap := s.cap } = s

/-- Unit `i` performs no CAP_RISE and no CAP_FALL in this clock (R57): the line is where it was. -/
def Holding (s : State) (i : Channel) : Prop :=
  (s.unit i).prevLevel = s.lvl i

/-- The clocks `0, …, n-1` of the run from `s` all satisfy `P`. -/
def RunSatisfies (n : Nat) (s : State) (P : State → Prop) : Prop :=
  ∀ k, k < n → ∀ u, Sys2Proof.core.run k s = .next u → P u

/-- A state and its listed inputs with every timestamp moved by `d`, modulo `2^TS_W` (R112). -/
def shiftTime (d : Nat) (s : State) : State :=
  { s with
    cap := s.cap.map fun u => { u with riseTs := truncate s.cfg.tsW (u.riseTs + d) }
    iterStart := truncate s.cfg.tsW (s.iterStart + d)
    inp := { s.inp with timeUs := s.inp.timeUs + d }
    stimulus := s.stimulus.map fun x => { x with timeUs := x.timeUs + d } }

/-- `t` is the state `n` clocks after `s`. -/
def RunsTo (n : Nat) (s t : State) : Prop :=
  Sys2Proof.core.run n s = .next t

end Sys2Proof.Machine
end

