-- ==== Sys2Proof/Certificates/Slice0/Obligations.lean ====
section
/-! DEFINITION. The statements about the block, for the provers. Each docstring names the rules of spec/ it
formalises. `step` is one clock with the inputs `s.inp`; `exec` is one unit's operation alone. -/

open Sys2Proof Sys2Proof.Machine

/-! ### Selectors -/

/-- Tier 3. Decode and encode agree for every operation, with every bit its encoding leaves open, as selector
words and as selector bytes, and each selector word is the encoding of the one operation it selects
(30_encoding.md R46, R48, R50). The byte form is the model's own (log entry 13). -/
def Obligations.DecodeEncodeRoundTrip : Prop :=
  (∀ i : Instr, decode (encode i) = .ok i ∧ decodeByte (encodeByte i) = .ok i) ∧
  (∀ (x : Selector) (i : Instr), decode x = .ok i → encode i = x)

/-- Tier 2. The decoder is the opcode map (30_encoding.md section 8): every decoded word belongs to exactly one
row, the row of its operation's mnemonic, and the words no row covers are the ones the decoder rejects. -/
def Obligations.DecoderFollowsOpcodeMap : Prop :=
  (∀ (x : Selector) (i : Instr), decode x = .ok i →
    ∃ r ∈ opcodeRows, r.covers x.format x.toNat = true ∧ r.mnemonic = i.mnemonic ∧
      ∀ r' ∈ opcodeRows, r'.covers x.format x.toNat = true → r' = r) ∧
  (∀ x : Selector, (∃ e, decode x = .error e) ↔ ∀ r ∈ opcodeRows, r.covers x.format x.toNat = false)

/-- Tier 1. `CAPSEL` decode, word by word (R46). -/
def Obligations.CapselDecode : Prop :=
  ∀ i : Channel,
    decode (.cap i 0b000#3) = .ok (.capHoldLow i) ∧ decode (.cap i 0b001#3) = .ok (.capRise i) ∧
    decode (.cap i 0b010#3) = .ok (.capFall i) ∧ decode (.cap i 0b011#3) = .ok (.capHoldHigh i) ∧
    decode (.cap i 0b100#3) = .ok (.capReset i false false) ∧
    decode (.cap i 0b101#3) = .ok (.capReset i false true) ∧
    decode (.cap i 0b110#3) = .ok (.capReset i true false) ∧
    decode (.cap i 0b111#3) = .ok (.capReset i true true)

/-- Tier 1. `FSMSEL` decode, word by word, the reserved codes and the reset words among them (R48). -/
def Obligations.FsmselDecode : Prop :=
  decode (.fsm 0b0000#4) = .ok .sWait ∧ decode (.fsm 0b0001#4) = .ok .sSnap ∧
  decode (.fsm 0b0010#4) = .ok .sDerive ∧ decode (.fsm 0b0011#4) = .ok .sApply ∧
  decode (.fsm 0b0100#4) = .ok .sLog ∧ decode (.fsm 0b0101#4) = .ok .fsmReserved5 ∧
  decode (.fsm 0b0110#4) = .ok (.fsmReserved67 false) ∧ decode (.fsm 0b0111#4) = .ok (.fsmReserved67 true) ∧
  ∀ code : FsmCode, decode (.fsm (0b1#1 ++ code)) = .ok (.fsmReset code)

/-- Tier 2. `SECSEL` decode and the half-open bands: in the default build the sector of a hue is the band its
reduced hue lies in, and the operation of that band is the one selected (R50); the codes 6 and 7 select none and
never occur (R51). -/
def Obligations.SectorBands : Prop :=
  decode (.sec 0b000#3) = .ok .sector0 ∧ decode (.sec 0b001#3) = .ok .sector1 ∧
  decode (.sec 0b010#3) = .ok .sector2 ∧ decode (.sec 0b011#3) = .ok .sector3 ∧
  decode (.sec 0b100#3) = .ok .sector4 ∧ decode (.sec 0b101#3) = .ok .sector5 ∧
  decode (.sec 0b110#3) = .error (.unreachableSector 0b110#3) ∧
  decode (.sec 0b111#3) = .error (.unreachableSector 0b111#3) ∧
  (∀ (c : Config) (h : Nat) (k : Nat), StandardBuild c → k < 6 →
    60 * k ≤ h % 360 → h % 360 < 60 * k + 60 → sectorOf c h = BitVec.ofNat 3 k) ∧
  ∀ (c : Config) (h : Nat), c.legal = true → sectorOf c h ≠ 0b110#3 ∧ sectorOf c h ≠ 0b111#3

/-! ### One operation alone: effects and frames -/

/-- Tier 1. CAP_HOLD_LOW and CAP_HOLD_HIGH write `prev_level[i]` with `lvl[i]` and nothing else; in the clocks
that select them nothing is published and no register changes, and a unit whose line is where it was performs one
of the two (R57). -/
def Obligations.CapHoldChangesNothing : Prop :=
  ∀ (i : Channel) (s : State),
    (∃ t, exec (.capHoldLow i) s = .next t ∧ t.unit i = { s.unit i with prevLevel := s.lvl i } ∧ OnlyUnit i s t) ∧
    (∃ t, exec (.capHoldHigh i) s = .next t ∧ t.unit i = { s.unit i with prevLevel := s.lvl i } ∧ OnlyUnit i s t) ∧
    (s.capsel i = 0b000#3 → s.capPub i = false ∧ exec (.capHoldLow i) s = .next s) ∧
    (s.capsel i = 0b011#3 → s.capPub i = false ∧ exec (.capHoldHigh i) s = .next s) ∧
    (s.inp.rst = false → Holding s i →
      decode (.cap i (s.capsel i)) = .ok (.capHoldLow i) ∨ decode (.cap i (s.capsel i)) = .ok (.capHoldHigh i))

/-- Tier 2. CAP_RISE records `time_us`, the value on its `TS_W`-bit port, and sets `rise_valid[i]`; the width, the flag, the other units and the
control loop are unchanged, and nothing is published; a rise in the S_SNAP clock does not touch the snapshot
(R58). -/
def Obligations.CapRiseRecordsStart : Prop :=
  ∀ (i : Channel) (s : State),
    encode (.capRise i) = .cap i 0b001#3 ∧ (s.capsel i = 0b001#3 → s.capPub i = false) ∧
    ∃ t, exec (.capRise i) s = .next t ∧
      t.unit i = { s.unit i with riseTs := s.now, riseValid := true, prevLevel := true } ∧
      OnlyUnit i s t ∧
      ∀ u, s.capsel i = 0b001#3 → s.state = fsmSnap → step s = .next u →
        u.snapW.get i = (s.unit i).width ∧ u.snapChg.get i = (s.unit i).changed ∧
        (u.unit i).riseTs = s.now

/-- Tier 2. CAP_FALL computes, validates and publishes: the measured width when there was a rise and the full
`TS_W`-bit difference is in range, else `W_NEUTRAL`; the flag is set either way; in the S_SNAP clock the snapshot takes
the old width and the flag stays 1 (R59 with R60, R61, R66). -/
def Obligations.CapFallPublishes : Prop :=
  ∀ (i : Channel) (s : State),
    encode (.capFall i) = .cap i 0b010#3 ∧ (s.capsel i = 0b010#3 → s.capPub i = true) ∧
    ∃ t, exec (.capFall i) s = .next t ∧
      t.unit i = { s.unit i with
        width :=
          if (s.unit i).riseValid = true ∧ s.cfg.wMin ≤ subMod s.cfg.tsW s.now (s.unit i).riseTs ∧
              subMod s.cfg.tsW s.now (s.unit i).riseTs ≤ s.cfg.wMax
          then truncate s.cfg.widthW (subMod s.cfg.tsW s.now (s.unit i).riseTs)
          else s.cfg.wNeutral
        prevLevel := false
        changed := true } ∧
      OnlyUnit i s t ∧
      ∀ u, s.capsel i = 0b010#3 → s.state = fsmSnap → step s = .next u →
        u.snapW.get i = (s.unit i).width ∧ (u.unit i).changed = true

/-- Tier 1. CAP_RESET sets its unit's registers to their reset values, loads `prev_level[i]` from `lvl[i]` and
leaves the synchroniser and everything else alone, whatever the open selector bits (the part of R107 that is the
unit's; which unit clears `changed[i]` is the model's reading, log entry 7). -/
def Obligations.CapResetClearsItsUnit : Prop :=
  ∀ (i : Channel) (p l : Bool) (s : State),
    ∃ t, exec (.capReset i p l) s = .next t ∧
      t.unit i = { sync := (s.unit i).sync, prevLevel := s.lvl i, riseTs := 0, riseValid := false,
                   width := s.cfg.wNeutral, changed := false } ∧
      OnlyUnit i s t

/-- Tier 1. S_WAIT goes to S_SNAP exactly when the modular difference of `time_us` and `iter_start` has reached
`CADENCE_US`, and writes nothing else; otherwise nothing is written (R79). -/
def Obligations.WaitForCadence : Prop :=
  ∀ s : State,
    encode .sWait = .fsm 0b0000#4 ∧
    (s.cfg.cadenceUs ≤ subMod s.cfg.tsW s.now s.iterStart → exec .sWait s = .next { s with state := fsmSnap }) ∧
    (subMod s.cfg.tsW s.now s.iterStart < s.cfg.cadenceUs → exec .sWait s = .next s)

/-- Tier 1. S_SNAP copies the three widths and the three flags of the start of the clock, samples `iter_start`,
goes to S_DERIVE, clears each `changed[i]` unless unit `i` publishes in this clock, and writes nothing else
(R68). -/
def Obligations.SnapCopiesAndClears : Prop :=
  ∀ s : State,
    encode .sSnap = .fsm 0b0001#4 ∧
    ∃ t, exec .sSnap s = .next t ∧
      (∀ i, t.snapW.get i = (s.unit i).width ∧ t.snapChg.get i = (s.unit i).changed ∧
        t.unit i = { s.unit i with changed := s.capPub i && (s.unit i).changed }) ∧
      t.iterStart = s.now ∧ t.state = fsmDerive ∧
      { t with cap := s.cap, snapW := s.snapW, snapChg := s.snapChg, iterStart := s.iterStart, state := s.state } = s

/-- Tier 1. S_DERIVE derives all commands from the snapshot and writes nothing else but the state code (R71). -/
def Obligations.DeriveFromSnapshot : Prop :=
  ∀ s : State,
    encode .sDerive = .fsm 0b0010#4 ∧
    exec .sDerive s = .next { s with
      cmdOn := fOnoff s.cfg s.snapW.ch1
      cmdBright := fBright s.cfg s.snapW.ch2
      cmdHue := fHue s.cfg s.snapW.ch3
      cmdR := (hsv s.cfg (fHue s.cfg s.snapW.ch3)).r
      cmdG := (hsv s.cfg (fHue s.cfg s.snapW.ch3)).g
      cmdB := (hsv s.cfg (fHue s.cfg s.snapW.ch3)).b
      state := fsmApply }

/-- Tier 2. S_APPLY copies the five commands to the output registers and writes nothing else but the state code;
without reset the output registers hold their values in every clock that is not an S_APPLY clock (R76). -/
def Obligations.ApplyCommands : Prop :=
  ∀ s : State,
    encode .sApply = .fsm 0b0011#4 ∧
    exec .sApply s = .next { s with
      outOn := s.cmdOn, outBright := s.cmdBright, outR := s.cmdR, outG := s.cmdG, outB := s.cmdB
      state := fsmLog } ∧
    ∀ t, s.inp.rst = false → s.state ≠ fsmApply → step s = .next t →
      t.outOn = s.outOn ∧ t.outBright = s.outBright ∧ t.outR = s.outR ∧ t.outG = s.outG ∧ t.outB = s.outB

/-- Tier 1. S_LOG emits exactly one record, with all three snapshot widths, when any snapshot flag is set, none
otherwise, and writes nothing else but the state code (R78 with R82). The list of emitted records is the model's
own field (log entry 12). -/
def Obligations.LogEmitsWhenChanged : Prop :=
  ∀ s : State,
    encode .sLog = .fsm 0b0100#4 ∧
    (s.snapChg.ch1 = true ∨ s.snapChg.ch2 = true ∨ s.snapChg.ch3 = true →
      exec .sLog s = .next { s with
        state := fsmWait
        emitted := s.emitted ++
          [{ ch8 := s.snapW.ch1, ch6 := s.snapW.ch2, ch7 := s.snapW.ch3, hue := s.cmdHue, bright := s.cmdBright }] }) ∧
    (s.snapChg.ch1 = false → s.snapChg.ch2 = false → s.snapChg.ch3 = false →
      exec .sLog s = .next { s with state := fsmWait })

/-- Tier 1. FSM_RESERVED recovers to S_WAIT and writes nothing else, for each of the three reserved codes
(R49). -/
def Obligations.ReservedStateRecovers : Prop :=
  ∀ s : State,
    decode (.fsm (0b0#1 ++ 0b101#3)) = .ok .fsmReserved5 ∧
    decode (.fsm (0b0#1 ++ 0b110#3)) = .ok (.fsmReserved67 false) ∧
    decode (.fsm (0b0#1 ++ 0b111#3)) = .ok (.fsmReserved67 true) ∧
    exec .fsmReserved5 s = .next { s with state := fsmWait } ∧
    ∀ low, exec (.fsmReserved67 low) s = .next { s with state := fsmWait }

/-- Tier 1. FSM_RESET sets every register of the control loop to its reset value and leaves the capture units
and everything else alone, whatever the state code (the part of R107 that is the FSM's, log entry 7). -/
def Obligations.FsmResetClearsControlLoop : Prop :=
  ∀ (code : FsmCode) (s : State),
    exec (.fsmReset code) s = .next { s with
      snapW := ⟨s.cfg.wNeutral, s.cfg.wNeutral, s.cfg.wNeutral⟩
      snapChg := ⟨false, false, false⟩
      state := fsmSnap
      iterStart := 0
      cmdOn := false, cmdBright := 0, cmdHue := 0, cmdR := 0, cmdG := 0, cmdB := 0
      outOn := false, outBright := 0, outR := 0, outG := 0, outB := 0 }

/-- Tier 2. The six sector operations in the default build: each writes its row of R91 with `xi` in the closed
form of R89 for the residue `ρ` of R88, and nothing else. -/
def Obligations.SectorOperations : Prop :=
  ∀ s : State, StandardBuild s.cfg →
    ∀ ρ : Nat, ρ = fHue s.cfg s.snapW.ch3 % 360 % 60 →
      exec .sector0 s = .next { s with cmdR := 255, cmdG := 17 * ρ / 4, cmdB := 0 } ∧
      exec .sector1 s = .next { s with cmdR := 17 * (60 - ρ) / 4, cmdG := 255, cmdB := 0 } ∧
      exec .sector2 s = .next { s with cmdR := 0, cmdG := 255, cmdB := 17 * ρ / 4 } ∧
      exec .sector3 s = .next { s with cmdR := 0, cmdG := 17 * (60 - ρ) / 4, cmdB := 255 } ∧
      exec .sector4 s = .next { s with cmdR := 17 * ρ / 4, cmdG := 0, cmdB := 255 } ∧
      exec .sector5 s = .next { s with cmdR := 255, cmdG := 0, cmdB := 17 * (60 - ρ) / 4 }

/-! ### The functions -/

/-- Tier 1. The range validator is inclusive at both ends and reads the full `TS_W`-bit value (R60). -/
def Obligations.RangeValidator : Prop :=
  (∀ (c : Config) (e : Nat), inrange c e = true ↔ c.wMin ≤ e ∧ e ≤ c.wMax) ∧
  (∀ c : Config, StandardBuild c →
    inrange c 999 = false ∧ inrange c 1000 = true ∧ inrange c 2000 = true ∧ inrange c 2001 = false)

/-- Tier 1. The timestamp delta is the difference modulo `2^TS_W`, across the wrap of `time_us` too (R61). -/
def Obligations.TimestampDelta : Prop :=
  (∀ (s : State) (i : Channel),
    (s.elapsed i : ℤ) = ((s.inp.timeUs : ℤ) - (s.unit i).riseTs) % 2 ^ s.cfg.tsW) ∧
  (∀ (s : State) (i : Channel), s.cfg.tsW = 32 → (s.unit i).riseTs = 0xFFFFFC18 → s.inp.timeUs = 0x000001F4 →
    s.elapsed i = 1500)

/-- Tier 1. The on/off threshold is strict (R72). -/
def Obligations.OnOffThreshold : Prop :=
  (∀ (c : Config) (w : Nat), fOnoff c w = true ↔ w > c.onThreshold) ∧
  (∀ c : Config, StandardBuild c → fOnoff c 1500 = false ∧ fOnoff c 1501 = true)

/-- Tier 2. The linear map is the clamped floor of the exact quotient, over the rationals; 1500 maps to 127 at the
defaults (R73). -/
def Obligations.LinearMapIsExactFloor : Prop :=
  (∀ c : Config, StandardBuild c → fMap c 1500 255 = 127) ∧
  ∀ (c : Config) (w : Nat) (m : Nat), c.wMin < c.wMax →
    (fMap c w m : ℤ) =
      min (max ⌊(((w : ℚ) - c.wMin) * m) / ((c.wMax : ℚ) - c.wMin)⌋ 0) m ∧
    (c.wMin ≤ w → 0 ≤ ⌊(((w : ℚ) - c.wMin) * m) / ((c.wMax : ℚ) - c.wMin)⌋) ∧
    (w < c.wMin → fMap c w m = 0)

/-- Tier 2. Brightness: the mapped value, forced to 0 at or below the dead-zone; at the defaults 0 up to width
1082, 21 at 1083, 127 at 1500 and 255 at 2000 (R74). -/
def Obligations.BrightnessDeadZone : Prop :=
  (∀ (c : Config) (w : Nat),
    fBright c w = if fMap c w c.intMax ≤ c.deadzone then 0 else fMap c w c.intMax) ∧
  (∀ (c : Config) (w : Nat), StandardBuild c →
    ((fBright c w = 0 ↔ w ≤ 1082) ∧ (fBright c w ≠ 0 → 21 ≤ fBright c w))) ∧
  (∀ c : Config, StandardBuild c → fBright c 1083 = 21 ∧ fBright c 1500 = 127 ∧ fBright c 2000 = 255)

/-- Tier 2. Hue: an integer number of degrees in `0..HUE_SPAN`, 360 kept unreduced at width 2000 (R75). -/
def Obligations.HueDegrees : Prop :=
  (∀ (c : Config) (w : Nat), fHue c w = fMap c w c.hueSpan ∧ fHue c w ≤ c.hueSpan) ∧
  (∀ c : Config, StandardBuild c →
    fHue c 1000 = 0 ∧ fHue c 1002 = 0 ∧ fHue c 1003 = 1 ∧ fHue c 1500 = 180 ∧ fHue c 1999 = 359 ∧
      fHue c 2000 = 360)

/-- Tier 2. The color transform is exact: in the default build, for every hue `0..360`, `HSV(h)` is the row of
R91 whose `X` component is `255·(1 − |((h'/60) mod 2) − 1|)`, evaluated over the rationals and truncated, with
`h' = h mod 360` (R87 to R92). -/
def Obligations.HsvIsExact : Prop :=
  ∀ (c : Config) (h : Nat), StandardBuild c → h ≤ 360 →
    ∀ (h' : Nat) (x X : ℚ) (xi : Nat),
      h' = h % 360 → x = (h' : ℚ) / 60 → X = 1 - |(x - 2 * ⌊x / 2⌋) - 1| →
      (xi : ℤ) = ⌊X * 255⌋ →
      hsv c h =
        if h' < 60 then ⟨255, xi, 0⟩ else if h' < 120 then ⟨xi, 255, 0⟩ else if h' < 180 then ⟨0, 255, xi⟩
        else if h' < 240 then ⟨0, xi, 255⟩ else if h' < 300 then ⟨xi, 0, 255⟩ else ⟨255, 0, xi⟩

/-- Tier 2. Properties of the default transform: one component is 255 and one is 0 for every hue, the primaries
and secondaries are exact, hue 360 is hue 0, at every band boundary both adjacent rows agree (the upper end of a band
is `ρ = 60` in its row and `ρ = 0` in the next), and `xi` is non-decreasing in an even band and non-increasing in an
odd one (the clauses of R94). -/
def Obligations.ColorProperties : Prop :=
  ∀ c : Config, StandardBuild c →
    (∀ h : Nat, ((hsv c h).r = 255 ∨ (hsv c h).g = 255 ∨ (hsv c h).b = 255) ∧
      ((hsv c h).r = 0 ∨ (hsv c h).g = 0 ∨ (hsv c h).b = 0)) ∧
    hsv c 0 = ⟨255, 0, 0⟩ ∧ hsv c 360 = ⟨255, 0, 0⟩ ∧ hsv c 120 = ⟨0, 255, 0⟩ ∧ hsv c 240 = ⟨0, 0, 255⟩ ∧
    hsv c 60 = ⟨255, 255, 0⟩ ∧ hsv c 180 = ⟨0, 255, 255⟩ ∧ hsv c 300 = ⟨255, 0, 255⟩ ∧
    (∀ k : Nat, k < 6 →
      sectorRow c k 60 = sectorRow c ((k + 1) % 6) 0 ∧ hsv c (60 * (k + 1)) = sectorRow c k 60) ∧
    (∀ k ρ ρ' : Nat, k < 6 → ρ ≤ ρ' → ρ' ≤ 60 →
      (k % 2 = 0 → xiAt c k ρ ≤ xiAt c k ρ') ∧ (k % 2 = 1 → xiAt c k ρ' ≤ xiAt c k ρ))

/-! ### Ports -/

/-- Tier 1. The actuator pins: on/off and brightness are the registers under either wiring, and a color line is
its register, inverted as `255 − v` exactly when `INVERT_COLOR` is 1 (R77, R95). That registers hold values of their
widths is kept by every step (`StepKeepsInv`). -/
def Obligations.ActuatorPins : Prop :=
  ∀ s : State,
    s.ledOn = s.outOn ∧ s.ledBright = s.outBright ∧
    (s.cfg.invertColor = false → s.ledR = s.outR ∧ s.ledG = s.outG ∧ s.ledB = s.outB) ∧
    (StandardBuild s.cfg → s.cfg.invertColor = true → RegistersFit s →
      (s.ledR : ℤ) = 255 - s.outR ∧ (s.ledG : ℤ) = 255 - s.outG ∧ (s.ledB : ℤ) = 255 - s.outB)

/-- Tier 1. The debug port: `dbg_valid` and the record fields (R80's equation, R82). -/
def Obligations.DebugPort : Prop :=
  ∀ s : State,
    (s.dbgValid = true ↔ s.inp.rst = false ∧ s.state = fsmLog ∧
      (s.snapChg.ch1 = true ∨ s.snapChg.ch2 = true ∨ s.snapChg.ch3 = true)) ∧
    s.dbgRecord.ch8 = s.snapW.ch1 ∧ s.dbgRecord.ch6 = s.snapW.ch2 ∧ s.dbgRecord.ch7 = s.snapW.ch3 ∧
    s.dbgRecord.hue = s.cmdHue ∧ s.dbgRecord.bright = s.cmdBright

/-- Tier 2. Decimal numerals: `dec(v)` is a numeral of decimal digits that reads back as `v`, has no leading zero
unless it is "0", and is never empty (the numeral clauses of R81). -/
def Obligations.DecimalNumerals : Prop :=
  dec 0 = ['0'] ∧
  ∀ n : Nat,
    (dec n).foldl (fun a d => 10 * a + (d.toNat - 48)) 0 = n ∧ (∀ d ∈ dec n, d.isDigit = true) ∧
    dec n ≠ [] ∧ (n ≠ 0 → (dec n).head? ≠ some '0')

/-- Tier 2. The rendered line of a record with four-digit widths and a hue and a brightness of at most three digits
has 44 to 48 characters before `DBG_EOL`, and 48 when the hue and the brightness have three digits: this is the model's
reading of R120's "48 characters" (log entry 20, DESIGN CHOICE), computed from R81; and the worked example of R81. -/
def Obligations.RenderedDebugLine : Prop :=
  (∀ (c : Config) (r : DbgRecord),
    1000 ≤ r.ch8 → r.ch8 ≤ 9999 → 1000 ≤ r.ch6 → r.ch6 ≤ 9999 → 1000 ≤ r.ch7 → r.ch7 ≤ 9999 →
    r.hue ≤ 999 → r.bright ≤ 999 →
    44 + c.dbgEol.length ≤ (renderLine c r).length ∧ (renderLine c r).length ≤ 48 + c.dbgEol.length ∧
      (100 ≤ r.hue → 100 ≤ r.bright → (renderLine c r).length = 48 + c.dbgEol.length)) ∧
  ∀ c : Config, renderLine c ⟨1600, 2000, 1500, 180, 255⟩ =
    ['C', 'H', '8', '=', '1', '6', '0', '0', ' ', 'C', 'H', '6', '=', '2', '0', '0', '0', ' ', 'C', 'H', '7',
     '=', '1', '5', '0', '0', ' ', 'H', 'u', 'e', '=', '1', '8', '0', ' ',
     'B', 'r', 'i', 'g', 'h', 't', 'L', 'E', 'D', '=', '2', '5', '5'] ++ c.dbgEol

/-! ### A clock -/

/-- Tier 1. A step runs the selected operations: in a legal build a clock is the FSM's operation, the
transform's in an S_DERIVE clock, and each capture unit's, each decoded from the selector its unit forms from
start-of-clock values, followed by the synchronisers' shift and the arrival of the next inputs. The order is the
model's (log entry 6); `EachUnitActsAsAlone` says that it does not show. -/
def Obligations.StepRunsSelectedOperations : Prop :=
  ∀ (s : State) (f c1 c2 c3 : Instr), s.cfg.legal = true →
    decode (.fsm (BitVec.ofBool s.inp.rst ++ s.state)) = .ok f →
    decode (.cap .ch1 (bits3 s.inp.rst (s.unit .ch1).prevLevel (s.lvl .ch1))) = .ok c1 →
    decode (.cap .ch2 (bits3 s.inp.rst (s.unit .ch2).prevLevel (s.lvl .ch2))) = .ok c2 →
    decode (.cap .ch3 (bits3 s.inp.rst (s.unit .ch3).prevLevel (s.lvl .ch3))) = .ok c3 →
    (¬ (s.inp.rst = false ∧ s.state = fsmDerive) →
      step s = andThen (exec f s) fun a => andThen (exec c1 a) fun b => andThen (exec c2 b) fun d =>
        andThen (exec c3 d) fun e => .next e.endOfClock) ∧
    (s.inp.rst = false ∧ s.state = fsmDerive →
      ∀ x : Instr, decode (.sec (sectorOf s.cfg (fHue s.cfg s.snapW.ch3))) = .ok x →
        step s = andThen (exec f s) fun z => andThen (exec x z) fun a => andThen (exec c1 a) fun b =>
          andThen (exec c2 b) fun d => andThen (exec c3 d) fun e => .next e.endOfClock)

/-- Tier 2. The operations of a clock take effect together (R10, R45, R98): after a step of a legal build, each
unit's registers are what its own operation alone gives on the start-of-clock state, whichever operations the
other units perform. The one register with two writers is `changed[i]` (`ChangedArbiter`). -/
def Obligations.EachUnitActsAsAlone : Prop :=
  ∀ (s t : State), step s = .next t →
    (∀ (i : Channel) (c : Instr) (a : State), decode (.cap i (s.capsel i)) = .ok c → exec c s = .next a →
      (t.unit i).prevLevel = (a.unit i).prevLevel ∧ (t.unit i).riseTs = (a.unit i).riseTs ∧
      (t.unit i).riseValid = (a.unit i).riseValid ∧ (t.unit i).width = (a.unit i).width) ∧
    (∀ (f : Instr) (a : State), decode (.fsm s.fsmsel) = .ok f → exec f s = .next a →
      { t with cap := a.cap, inp := a.inp, stimulus := a.stimulus, clock := a.clock } = a) ∧
    (s.inp.rst = false → s.state = fsmDerive →
      ∀ (x : Instr) (a : State), decode (.sec s.secsel) = .ok x → exec x s = .next a →
        t.cmdR = a.cmdR ∧ t.cmdG = a.cmdG ∧ t.cmdB = a.cmdB)

/-- Tier 2. The snapshot arbiter: the next value of `changed[i]` in a clock (R69). -/
def Obligations.ChangedArbiter : Prop :=
  ∀ (s t : State) (i : Channel), step s = .next t →
    (s.inp.rst = true → (t.unit i).changed = false) ∧
    (s.inp.rst = false → s.capPub i = true → (t.unit i).changed = true) ∧
    (s.inp.rst = false → s.capPub i = false → s.state = fsmSnap → (t.unit i).changed = false) ∧
    (s.inp.rst = false → s.capPub i = false → s.state ≠ fsmSnap → (t.unit i).changed = (s.unit i).changed)

/-- Tier 2. A publish in the S_SNAP clock: the snapshot holds the width and the flag from before it, and after the
clock the new width stands with its flag set (the first two clauses of R70). -/
def Obligations.SnapshotCollision : Prop :=
  ∀ (s : State) (i : Channel), s.cfg.legal = true → s.inp.rst = false → s.state = fsmSnap →
    (s.unit i).prevLevel = true → s.lvl i = false →
    ∃ t, step s = .next t ∧
      t.snapW.get i = (s.unit i).width ∧ t.snapChg.get i = (s.unit i).changed ∧
      (t.unit i).width =
        (if (s.unit i).riseValid = true ∧ inrange s.cfg (subMod s.cfg.tsW s.now (s.unit i).riseTs) = true
         then truncate s.cfg.widthW (subMod s.cfg.tsW s.now (s.unit i).riseTs) else s.cfg.wNeutral) ∧
      (t.unit i).changed = true

/-- Tier 2. The FSM's transitions, one clock each, and reset to S_SNAP; no other transition exists (R67). -/
def Obligations.FsmTransitions : Prop :=
  ∀ s : State, s.cfg.legal = true →
    ∃ t, step s = .next t ∧
      (s.inp.rst = true → t.state = fsmSnap) ∧
      (s.inp.rst = false →
        (s.state = fsmSnap → t.state = fsmDerive) ∧
        (s.state = fsmDerive → t.state = fsmApply) ∧
        (s.state = fsmApply → t.state = fsmLog) ∧
        (s.state = fsmLog → t.state = fsmWait) ∧
        (s.state = fsmWait → s.cfg.cadenceUs ≤ subMod s.cfg.tsW s.now s.iterStart → t.state = fsmSnap) ∧
        (s.state = fsmWait → subMod s.cfg.tsW s.now s.iterStart < s.cfg.cadenceUs → t.state = fsmWait) ∧
        (s.state = 0b101#3 ∨ s.state = 0b110#3 ∨ s.state = 0b111#3 → t.state = fsmWait))

/-- Tier 2. A reset clock, from any state of a legal build: every register at its reset value, the synchronisers
shifting, `prev_level[i]` loaded from `lvl[i]`, `dbg_valid` 0, and nothing else (R107, R80). That the list of emitted
records is unchanged is about the model's own field, which reset does not clear (log entry 12). -/
def Obligations.ResetClock : Prop :=
  ∀ s : State, s.cfg.legal = true → s.inp.rst = true →
    s.dbgValid = false ∧
    ∃ t, step s = .next t ∧
      (∀ i, t.unit i = { sync := (s.unit i).sync.shift (lineOf s.inp i), prevLevel := s.lvl i, riseTs := 0,
                         riseValid := false, width := s.cfg.wNeutral, changed := false } ∧
        t.snapW.get i = s.cfg.wNeutral ∧ t.snapChg.get i = false) ∧
      t.state = fsmSnap ∧ t.iterStart = 0 ∧
      t.cmdOn = false ∧ t.cmdBright = 0 ∧ t.cmdHue = 0 ∧ t.cmdR = 0 ∧ t.cmdG = 0 ∧ t.cmdB = 0 ∧
      t.outOn = false ∧ t.outBright = 0 ∧ t.outR = 0 ∧ t.outG = 0 ∧ t.outB = 0 ∧
      t.emitted = s.emitted ∧ t.cfg = s.cfg

/-- Tier 2. Reset dominates (R47): the registers after a reset clock depend on nothing but the build, the
synchronisers and the lines; two states that differ in everything else give the same registers. -/
def Obligations.ResetDominates : Prop :=
  ∀ (s s' t t' : State), s.inp.rst = true → s'.inp.rst = true → s.cfg = s'.cfg → s.inp.pwmIn = s'.inp.pwmIn →
    (∀ i, (s.unit i).sync = (s'.unit i).sync) → step s = .next t → step s' = .next t' →
    { t with inp := t'.inp, stimulus := t'.stimulus, clock := t'.clock, emitted := t'.emitted } = t'

/-- Tier 2. Channel independence (R63): what a unit's registers are after a clock does not depend on the other
units nor on their lines; two states that agree on unit `i`, its line, `rst`, `time_us`, the build and the FSM's state
(which clears the flag) give unit `i` the same. -/
def Obligations.ChannelIndependence : Prop :=
  ∀ (s s' t t' : State) (i : Channel), s.unit i = s'.unit i → s.cfg = s'.cfg → s.inp.rst = s'.inp.rst →
    s.inp.timeUs = s'.inp.timeUs → lineOf s.inp i = lineOf s'.inp i → s.state = s'.state →
    step s = .next t → step s' = .next t' → t.unit i = t'.unit i

/-- Tier 2. Writers (R41, with R28 and R29): outside reset, the command registers change only in S_DERIVE, the
output registers only in S_APPLY, the snapshot and `iter_start` only in S_SNAP, `rise_ts` and `rise_valid` only in
CAP_RISE, `width` only in CAP_FALL, and records leave only in S_LOG (R78, R80; said of the list of emitted records, the
model's own field, log entry 12). -/
def Obligations.OnlyTheNamedWriters : Prop :=
  ∀ (s t : State), step s = .next t → s.inp.rst = false →
    (s.state ≠ fsmDerive → t.cmdOn = s.cmdOn ∧ t.cmdBright = s.cmdBright ∧ t.cmdHue = s.cmdHue ∧
      t.cmdR = s.cmdR ∧ t.cmdG = s.cmdG ∧ t.cmdB = s.cmdB) ∧
    (s.state ≠ fsmApply → t.outOn = s.outOn ∧ t.outBright = s.outBright ∧ t.outR = s.outR ∧ t.outG = s.outG ∧
      t.outB = s.outB) ∧
    (s.state ≠ fsmSnap → t.snapW = s.snapW ∧ t.snapChg = s.snapChg ∧ t.iterStart = s.iterStart) ∧
    (s.state ≠ fsmLog → t.emitted = s.emitted) ∧
    ∀ i, (s.capsel i ≠ 0b001#3 → (t.unit i).riseTs = (s.unit i).riseTs ∧ (t.unit i).riseValid = (s.unit i).riseValid) ∧
      (s.capsel i ≠ 0b010#3 → (t.unit i).width = (s.unit i).width)

/-- Tier 2. A record leaves the block exactly in the clocks with `dbg_valid = 1`, and it is the record on the port
(R80, R82; the list is the model's own field, log entry 12). -/
def Obligations.EmissionFollowsDebugPort : Prop :=
  ∀ (s t : State), step s = .next t →
    t.emitted = s.emitted ++ (if s.dbgValid = true then [s.dbgRecord] else [])

/-- Tier 2. A legal build never stops: every clock has a next state, no operation faults, and the build itself is
never written (R96, R33). -/
def Obligations.LegalBuildNeverStops : Prop :=
  (∀ (i : Instr) (s : State), ∃ t, exec i s = .next t ∧ t.cfg = s.cfg) ∧
  ∀ s : State, s.cfg.legal = true → ∃ t, step s = .next t ∧ t.cfg = s.cfg

/-- Tier 2. A configuration that breaks one of R9's conditions is refused, and one with the default literals runs,
whatever the OPEN parameters. -/
def Obligations.IllegalConfigurationRefused : Prop :=
  (∀ s : State,
    ¬ (s.cfg.wMin < s.cfg.wMax ∧ s.cfg.wMax < 2 ^ s.cfg.widthW ∧ s.cfg.wMin ≤ s.cfg.wNeutral ∧
        s.cfg.wNeutral ≤ s.cfg.wMax ∧ s.cfg.wMin ≤ s.cfg.onThreshold ∧ s.cfg.onThreshold ≤ s.cfg.wMax ∧
        s.cfg.deadzone < s.cfg.intMax ∧ 0 < s.cfg.cadenceUs ∧ s.cfg.cadenceUs < 2 ^ s.cfg.tsW ∧
        s.cfg.hueSpan = 6 * s.cfg.sectorDeg ∧ 1 ≤ s.cfg.syncStages) →
      step s = .refused .illegalConfiguration) ∧
  ∀ s : State, StandardBuild s.cfg → ∃ t, step s = .next t

/-! ### Invariants -/

/-- Tier 1. The state after reset satisfies the three invariants below. -/
def Obligations.ResetSatisfiesInvariants : Prop :=
  Inv State.reset ∧ InPhase State.reset ∧ ActuationAllowed State.reset

/-- Tier 3. Every step keeps the state invariant: legal build, defined state code, every register within its width, widths and snapshot widths in
`[W_MIN, W_MAX]`, synchronisers of `SYNC_STAGES` stages, no rise time without a rise (R8, R18, R21, R30, R49). -/
def Obligations.StepKeepsInv : Prop :=
  ∀ s t : State, Inv s → step s = .next t → Inv t

/-- Tier 3. Every step keeps the order snapshot, derive, actuate, log: whenever a record can be logged, and until
the next snapshot, the commands are those the snapshot derives and the outputs are the commands (R67, R71, R76,
R82: "the same values the iteration derived from"). -/
def Obligations.StepKeepsPhase : Prop :=
  ∀ s t : State, InPhase s → step s = .next t → InPhase t

/-- Tier 3. Every step keeps the actuation within its ranges: a hue of at most `HUE_SPAN`, a brightness that is off
or above the dead-zone, and a color that is dark or the color of some hue, in the commands and at the outputs
(R74, R75, R91, R107). -/
def Obligations.StepKeepsActuationAllowed : Prop :=
  ∀ s t : State, ActuationAllowed s → step s = .next t → ActuationAllowed t

/-- Tier 2. The width invariant: in every clock after the first reset clock, from whatever state, every width and
every snapshot width lies in `[W_MIN, W_MAX]` (R30). -/
def Obligations.WidthsInRangeAfterReset : Prop :=
  ∀ (n : Nat) (s t : State), s.inp.rst = true → RunsTo (n + 1) s t → WidthsInRange t

/-! ### Runs -/

/-- Tier 2. The synchroniser delays a line by its number of stages, for either level and in reset clocks too
(R55). -/
def Obligations.SynchroniserDelay : Prop :=
  (∀ (s t : State) (i : Channel), step s = .next t →
    (t.unit i).sync = (s.unit i).sync.shift (lineOf s.inp i) ∧ (t.unit i).prevLevel = s.lvl i) ∧
  ∀ (s t : State) (i : Channel), RunsTo (s.unit i).sync.stages s t → t.lvl i = lineOf s.inp i

/-- Tier 2. A pulse is measured exactly: if unit `i` performs CAP_RISE in one clock, then holds for `n` clocks
with no reset, and then performs CAP_FALL, the published width is the modular difference of the two sampled times
when that is in `[W_MIN, W_MAX]` and `W_NEUTRAL` otherwise, and the flag is set (R58, R59, R61; §8's first two
properties). -/
def Obligations.PulseIsMeasured : Prop :=
  ∀ (n : Nat) (i : Channel) (s u t : State), s.capsel i = 0b001#3 → RunsTo (n + 1) s u →
    (∀ k, 0 < k → k < n + 1 → ∀ m, RunsTo k s m → m.inp.rst = false ∧ Holding m i) →
    u.capsel i = 0b010#3 → step u = .next t →
    (t.unit i).width =
      (if s.cfg.wMin ≤ subMod s.cfg.tsW u.now s.now ∧ subMod s.cfg.tsW u.now s.now ≤ s.cfg.wMax
       then subMod s.cfg.tsW u.now s.now else s.cfg.wNeutral) ∧
    (t.unit i).changed = true

/-- Tier 2. No activity: while unit `i` performs no CAP_FALL and there is no reset, its width keeps its value, and
once a snapshot has been taken its flag stays 0; there is no timeout (R65). -/
def Obligations.SilentLineKeepsWidth : Prop :=
  (∀ (n : Nat) (i : Channel) (s t : State), RunsTo n s t →
    RunSatisfies n s (fun u => u.inp.rst = false ∧ u.capPub i = false) → (t.unit i).width = (s.unit i).width) ∧
  ∀ (n : Nat) (i : Channel) (s t : State), s.state = fsmSnap → RunsTo (n + 1) s t →
    RunSatisfies (n + 1) s (fun u => u.inp.rst = false ∧ u.capPub i = false) → (t.unit i).changed = false

/-- Tier 2. Edges alternate (R62), as long as there is no reset: after a CAP_FALL of unit `i`, no later clock performs
CAP_FALL on it before one performs CAP_RISE; after a CAP_RISE, no later clock performs CAP_RISE before one performs
CAP_FALL; and the first edge after a reset clock is a CAP_FALL exactly when `lvl[i]` was 1 in that clock, and a CAP_RISE
exactly when it was 0. -/
def Obligations.EdgesAlternate : Prop :=
  (∀ (n : Nat) (i : Channel) (s t : State), s.capsel i = 0b010#3 → RunsTo (n + 1) s t →
    RunSatisfies (n + 1) s (fun u => u.inp.rst = false ∧ u.capsel i ≠ 0b001#3) → t.capsel i ≠ 0b010#3) ∧
  (∀ (n : Nat) (i : Channel) (s t : State), s.capsel i = 0b001#3 → RunsTo (n + 1) s t →
    RunSatisfies (n + 1) s (fun u => u.inp.rst = false ∧ u.capsel i ≠ 0b010#3) → t.capsel i ≠ 0b001#3) ∧
  ∀ (n : Nat) (i : Channel) (s t u : State), s.inp.rst = true → step s = .next t → RunsTo n t u →
    RunSatisfies n t (fun m => m.inp.rst = false ∧ Holding m i) → u.inp.rst = false → ¬ Holding u i →
    (u.capsel i = 0b010#3 ↔ s.lvl i = true) ∧ (u.capsel i = 0b001#3 ↔ s.lvl i = false)

/-- Tier 2. An iteration: from an S_SNAP clock, three clocks without reset later the FSM is in S_LOG, the snapshot is
the widths and flags of the S_SNAP clock, the outputs are what those widths derive, and the record on the debug
port is due exactly when a flag was set (R67, R68, R71, R76, R78, R80). The inputs are any, listed or drawn. -/
def Obligations.IterationActuatesSnapshot : Prop :=
  ∀ s : State, s.cfg.legal = true → s.state = fsmSnap →
    (∀ k u, k ≤ 3 → RunsTo k s u → u.inp.rst = false) →
    ∃ t, RunsTo 3 s t ∧ t.state = fsmLog ∧ t.iterStart = s.now ∧
      (∀ i, t.snapW.get i = (s.unit i).width ∧ t.snapChg.get i = (s.unit i).changed) ∧
      t.outOn = fOnoff s.cfg (s.unit .ch1).width ∧ t.outBright = fBright s.cfg (s.unit .ch2).width ∧
      (⟨t.outR, t.outG, t.outB⟩ : Rgb) = hsv s.cfg (fHue s.cfg (s.unit .ch3).width) ∧
      t.cmdHue = fHue s.cfg (s.unit .ch3).width ∧
      (t.dbgValid = true ↔ ∃ i, (s.unit i).changed = true)

/-- Tier 2. The iteration's length (R83): if clock 0 is an S_SNAP clock and, with no reset, `n` is the first clock
from 4 on at which the modular time since clock 0 has reached `CADENCE_US`, then the next S_SNAP clock is clock
`n + 1`. Under the 1 MHz harness with `CADENCE_US ≥ 4`, that is clock `CADENCE_US + 1`. -/
def Obligations.IterationPeriod : Prop :=
  (∀ (n : Nat) (s t : State), s.state = fsmSnap → 4 ≤ n → RunsTo (n + 1) s t →
    (∀ k u, k ≤ n → RunsTo k s u → u.inp.rst = false ∧
      (4 ≤ k → (s.cfg.cadenceUs ≤ subMod s.cfg.tsW u.now s.now ↔ k = n))) →
    t.state = fsmSnap ∧ ∀ k u, 0 < k → k ≤ n → RunsTo k s u → u.state ≠ fsmSnap) ∧
  ∀ s t : State, s.state = fsmSnap → 4 ≤ s.cfg.cadenceUs → RunsTo (s.cfg.cadenceUs + 1) s t →
    (∀ k u, k ≤ s.cfg.cadenceUs → RunsTo k s u →
      u.inp.rst = false ∧ u.now = truncate s.cfg.tsW (s.now + k)) →
    t.state = fsmSnap ∧ ∀ k u, 0 < k → k ≤ s.cfg.cadenceUs → RunsTo k s u → u.state ≠ fsmSnap

/-- Tier 2. Snapshots recur (R84): from any state, whatever its state code, with no reset and a timebase that keeps
R15's contract and advances in every clock (stronger than R15's "keeps advancing", so that the bound is a number of
clocks), an S_SNAP clock comes within `CADENCE_US + 5` clocks. Builds with `CADENCE_US` above `2^(TS_W-1)`, which R9
allows, are left out: there a contract's step could jump over the moment at which the wait is due. -/
def Obligations.SnapshotsRecur : Prop :=
  ∀ s t : State, s.cfg.cadenceUs ≤ 2 ^ (s.cfg.tsW - 1) → RunsTo (s.cfg.cadenceUs + 5) s t →
    (∀ k u v, k < s.cfg.cadenceUs + 5 → RunsTo k s u → step u = .next v →
      u.inp.rst = false ∧ TimebaseContract u v ∧ v.now ≠ u.now) →
    ∃ k u, 0 < k ∧ k ≤ s.cfg.cadenceUs + 5 ∧ RunsTo k s u ∧ u.state = fsmSnap

/-- Tier 2. A publish is seen by the next snapshot: if unit `i` publishes in one clock, and the first S_SNAP clock
after it comes with no reset and no later publish of the unit, that snapshot holds the published width with its flag
set, whether or not the publish itself fell in an S_SNAP clock (R70's last clause, R116, R117). -/
def Obligations.PublishReachesNextSnapshot : Prop :=
  ∀ (n : Nat) (i : Channel) (s t u v : State), s.capPub i = true → step s = .next t → RunsTo n t u →
    RunSatisfies n t (fun m => m.inp.rst = false ∧ m.capPub i = false ∧ m.state ≠ fsmSnap) →
    u.state = fsmSnap → u.inp.rst = false → step u = .next v →
    v.snapW.get i = (t.unit i).width ∧ v.snapChg.get i = true

/-- Tier 2. The first iteration of the default build: one reset clock from whatever state and four clocks without
reset later, the outputs are off, 127 and the logical color of hue 180, and no record has been emitted (R108); the
outputs are dark until then (R109's register values). The inputs are any, listed or drawn. That the reset clock leaves
the list of emitted records as it was is about the model's own field (log entry 12). -/
def Obligations.FirstIterationIsNeutral : Prop :=
  ∀ s : State, StandardBuild s.cfg → s.inp.rst = true →
    (∀ k u, 1 ≤ k → k ≤ 4 → RunsTo k s u → u.inp.rst = false) →
    (∀ k t, 1 ≤ k → k ≤ 3 → RunsTo k s t → t.outOn = false ∧ t.outBright = 0 ∧ t.outR = 0 ∧ t.outG = 0 ∧ t.outB = 0) ∧
    (∃ t, RunsTo 4 s t ∧ t.state = fsmLog ∧ t.outOn = false ∧ t.outBright = 127 ∧ t.cmdHue = 180 ∧
      t.outR = 0 ∧ t.outG = 255 ∧ t.outB = 255 ∧ t.dbgValid = false) ∧
    ∃ t, RunsTo 5 s t ∧ t.state = fsmWait ∧ t.emitted = s.emitted

/-- Tier 2. A reset held for `SYNC_STAGES + 1` clocks with steady lines settles every unit: the first clock after it
performs a hold on every channel, so no edge is reported for a level the line already had (R110, R19). -/
def Obligations.ResetHoldSettles : Prop :=
  ∀ (s t : State) (lines : BitVec 3),
    (∀ i, (s.unit i).sync.stages = s.cfg.syncStages) → RunsTo (s.cfg.syncStages + 1) s t →
    RunSatisfies (s.cfg.syncStages + 1) s (fun u => u.inp.rst = true ∧ u.inp.pwmIn = lines) →
    ∀ i, Holding t i ∧ t.lvl i = lineOf s.inp i

/-- Tier 2. A stalled timebase: in S_WAIT before the cadence boundary, as long as `time_us` stays at its value and
there is no reset, the FSM stays in S_WAIT and the outputs do not change (the first consequence of R118). -/
def Obligations.StalledTimebaseFreezes : Prop :=
  ∀ (n : Nat) (s t : State), s.state = fsmWait → subMod s.cfg.tsW s.now s.iterStart < s.cfg.cadenceUs →
    RunsTo n s t → RunSatisfies n s (fun u => u.inp.rst = false ∧ u.now = s.now) →
    t.state = fsmWait ∧ t.iterStart = s.iterStart ∧ t.snapW = s.snapW ∧ t.outOn = s.outOn ∧
      t.outBright = s.outBright ∧ t.outR = s.outR ∧ t.outG = s.outG ∧ t.outB = s.outB

/-- Tier 3. The origin of the timebase does not matter (R112): outside reset, a state with every timestamp moved by
`d` steps to the next state with every timestamp moved by `d`, as long as the next inputs are listed. -/
def Obligations.TimeOriginDoesNotMatter : Prop :=
  ∀ (d : Nat) (s t : State), s.inp.rst = false → s.stimulus ≠ [] → step s = .next t →
    step (shiftTime d s) = .next (shiftTime d t)

/-! ### The stimulus notation -/

/-- Tier 2. `PULSE` is its expansion, and a single `PULSE ch<i> @<k> w=<n>` holds the level at 1 in exactly the
clocks `k` to `k+n-1`, between which the harness timebase advances by `n` (R54 with R53). That the level is 0 before the
pulse's line, and 0 throughout when `n` is 0 and both lines name one clock, is the model's choice (log entry 19, DESIGN
CHOICE). -/
def Obligations.PulseStimulus : Prop :=
  (∀ (p : StimulusProgram) (i : Channel) (k : Nat),
    p.level i k = StimulusProgram.level { p with lines := p.lines.flatMap StimulusLine.expand } i k ∧
    p.resetAt k = StimulusProgram.resetAt { p with lines := p.lines.flatMap StimulusLine.expand } k) ∧
  (∀ (inv : Bool) (t0 : Nat) (run : Nat) (i : Channel) (k n m : Nat),
    StimulusProgram.level ⟨inv, t0, [.pulse i k n], run⟩ i m = decide (k ≤ m ∧ m < k + n)) ∧
  ∀ (p : StimulusProgram) (k n : Nat), subMod 32 (p.time (k + n)) (p.time k) = n % 2 ^ 32

/-- Tier 2. The harness drives the synchronised levels: in clock `k` of a stimulus program's run, through its last
clock, `lvl[i]`, `rst` and `time_us` are the program's, although the block sees the lines only through its
synchronisers, in a build clocked at 1 MHz with the program's `INVERT_COLOR`; and `run <k>` evaluates through the end of
clock `k` (R53, R55). The state in which clock 0 begins, its synchronisers' contents among it, is the model's choice
(log entry 19, DESIGN CHOICE). -/
def Obligations.HarnessDrivesLevels : Prop :=
  (∀ (p : StimulusProgram) (k : Nat), k ≤ p.run →
    ∃ s, p.stateAt k = .next s ∧ (∀ i, s.lvl i = p.level i k) ∧ s.inp.rst = p.resetAt k ∧ s.now = p.time k ∧
      s.cfg.fClk = 1000000 ∧ s.cfg.invertColor = p.invertColor ∧ p.outputsAt k = some s.outputs) ∧
  ∀ p : StimulusProgram, ∃ s t, p.stateAt p.run = .next s ∧ step s = .next t ∧ p.evaluate = .next t
end

