-- ==== Sys2Proof/Laws/State.lean ====
section
/-! SUPPORT. One lemma per field per named update of the state, so that no proof unfolds a record update, and the
read-after-write laws of the channels. -/
namespace Sys2Proof.Machine

/-! ### Channels -/

@[simp] theorem PerChannel.get_set_same {α : Type} (p : PerChannel α) (i : Channel) (a : α) :
    (p.set i a).get i = a := by
  cases i <;> rfl

theorem PerChannel.get_set_other {α : Type} (p : PerChannel α) {i j : Channel} (a : α) (h : j ≠ i) :
    (p.set i a).get j = p.get j := by
  cases i <;> cases j <;> first | rfl | exact absurd rfl h

@[simp] theorem PerChannel.get_map {α β : Type} (f : α → β) (p : PerChannel α) (i : Channel) :
    (p.map f).get i = f (p.get i) := by
  cases i <;> rfl

theorem PerChannel.ext_get {α : Type} {p q : PerChannel α} (h : ∀ i, p.get i = q.get i) : p = q := by
  cases p; cases q
  simp only [PerChannel.mk.injEq]
  exact ⟨h .ch1, h .ch2, h .ch3⟩

/-! ### Numbers of a width (R11) -/

theorem truncate_lt (n v : Nat) : truncate n v < 2 ^ n :=
  Nat.mod_lt _ (Nat.two_pow_pos n)

theorem truncate_of_lt {n v : Nat} (h : v < 2 ^ n) : truncate n v = v :=
  Nat.mod_eq_of_lt h

/-- `a -_n b` as the integer of R11. -/
theorem subMod_cast (n a b : Nat) : (subMod n a b : Int) = ((a : Int) - b) % 2 ^ n := by
  have h : (0 : Int) < 2 ^ n := by positivity
  simp [subMod, Int.toNat_of_nonneg (Int.emod_nonneg _ h.ne')]

theorem subMod_lt (n a b : Nat) : subMod n a b < 2 ^ n := by
  have h : (0 : Int) < 2 ^ n := by positivity
  have := Int.emod_lt_of_pos ((a : Int) - b) h
  rw [← subMod_cast] at this
  exact_mod_cast this

/-- A difference of two numbers moved by the same distance, modulo `2^n`. -/
theorem subMod_truncate_add (n a b d : Nat) :
    subMod n (truncate n (a + d)) (truncate n (b + d)) = subMod n a b := by
  have h : ((subMod n (truncate n (a + d)) (truncate n (b + d)) : Nat) : Int) = subMod n a b := by
    simp only [subMod_cast, truncate, Nat.cast_pow, Nat.cast_ofNat, Int.natCast_emod, Int.emod_sub_emod,
      Int.sub_emod_emod, Nat.cast_add, add_sub_add_right_eq_sub]
  exact_mod_cast h

/-- The distance from `a` to a number `d` further on. -/
theorem subMod_truncate_add_self (n a d : Nat) (h : d < 2 ^ n) : subMod n (truncate n (a + d)) a = d := by
  have h' : ((subMod n (truncate n (a + d)) a : Nat) : Int) = d := by
    simp only [subMod_cast, truncate, Nat.cast_pow, Nat.cast_ofNat, Int.natCast_emod, Int.emod_sub_emod, Nat.cast_add,
      add_sub_cancel_left]
    exact Int.emod_eq_of_lt (by positivity) (by exact_mod_cast h)
  exact_mod_cast h'

/-- Distances add while their sum fits. -/
theorem subMod_add {n a b c : Nat} (h : subMod n a b + subMod n b c < 2 ^ n) :
    subMod n a c = subMod n a b + subMod n b c := by
  have h' : ((subMod n a c : Nat) : Int) = (subMod n a b + subMod n b c : Nat) := by
    have hs : ((subMod n a b + subMod n b c : Nat) : Int) % 2 ^ n = ((a : Int) - c) % 2 ^ n := by
      rw [Nat.cast_add, subMod_cast, subMod_cast, ← Int.add_emod]
      congr 1
      ring
    rw [subMod_cast, ← hs]
    exact Int.emod_eq_of_lt (by positivity) (by exact_mod_cast h)
  exact_mod_cast h'

/-- The port's value has `TS_W` bits (R15). -/
theorem now_lt (s : State) : s.now < 2 ^ s.cfg.tsW :=
  truncate_lt _ _

@[simp] theorem setUnit_now (s : State) (i : Channel) (u : CaptureUnit) : (s.setUnit i u).now = s.now := rfl
@[simp] theorem setColor_now (s : State) (x : Rgb) : (s.setColor x).now = s.now := rfl

/-! ### Bits -/

/-- The bits of `{a, b, c}` (R11). -/
@[simp] theorem bits3_bits : ∀ a b c : Bool,
    (bits3 a b c).getLsbD 0 = c ∧ (bits3 a b c).getLsbD 1 = b ∧ (bits3 a b c).getLsbD 2 = a := by
  decide

/-! ### State codes -/

/-- The five state codes are distinct (R48). -/
@[simp] theorem fsmCodes_distinct :
    fsmWait ≠ fsmSnap ∧ fsmWait ≠ fsmDerive ∧ fsmWait ≠ fsmApply ∧ fsmWait ≠ fsmLog ∧
    fsmSnap ≠ fsmWait ∧ fsmSnap ≠ fsmDerive ∧ fsmSnap ≠ fsmApply ∧ fsmSnap ≠ fsmLog ∧
    fsmDerive ≠ fsmWait ∧ fsmDerive ≠ fsmSnap ∧ fsmDerive ≠ fsmApply ∧ fsmDerive ≠ fsmLog ∧
    fsmApply ≠ fsmWait ∧ fsmApply ≠ fsmSnap ∧ fsmApply ≠ fsmDerive ∧ fsmApply ≠ fsmLog ∧
    fsmLog ≠ fsmWait ∧ fsmLog ≠ fsmSnap ∧ fsmLog ≠ fsmDerive ∧ fsmLog ≠ fsmApply := by
  decide

/-- The reserved codes are none of the five (R49). -/
@[simp] theorem reservedCodes_distinct :
    5#3 ≠ fsmWait ∧ 5#3 ≠ fsmSnap ∧ 5#3 ≠ fsmDerive ∧ 5#3 ≠ fsmApply ∧ 5#3 ≠ fsmLog ∧
    6#3 ≠ fsmWait ∧ 6#3 ≠ fsmSnap ∧ 6#3 ≠ fsmDerive ∧ 6#3 ≠ fsmApply ∧ 6#3 ≠ fsmLog ∧
    7#3 ≠ fsmWait ∧ 7#3 ≠ fsmSnap ∧ 7#3 ≠ fsmDerive ∧ 7#3 ≠ fsmApply ∧ 7#3 ≠ fsmLog := by
  decide

/-! ### `setUnit` -/

@[simp] theorem unit_setUnit_same (s : State) (i : Channel) (u : CaptureUnit) : (s.setUnit i u).unit i = u := by
  cases i <;> rfl

theorem unit_setUnit_other (s : State) {i j : Channel} (u : CaptureUnit) (h : j ≠ i) :
    (s.setUnit i u).unit j = s.unit j :=
  PerChannel.get_set_other s.cap u h

@[simp] theorem setUnit_cfg (s : State) (i : Channel) (u : CaptureUnit) : (s.setUnit i u).cfg = s.cfg := rfl
@[simp] theorem setUnit_state (s : State) (i : Channel) (u : CaptureUnit) : (s.setUnit i u).state = s.state := rfl
@[simp] theorem setUnit_iterStart (s : State) (i : Channel) (u : CaptureUnit) : (s.setUnit i u).iterStart = s.iterStart := rfl
@[simp] theorem setUnit_snapW (s : State) (i : Channel) (u : CaptureUnit) : (s.setUnit i u).snapW = s.snapW := rfl
@[simp] theorem setUnit_snapChg (s : State) (i : Channel) (u : CaptureUnit) : (s.setUnit i u).snapChg = s.snapChg := rfl
@[simp] theorem setUnit_cmdOn (s : State) (i : Channel) (u : CaptureUnit) : (s.setUnit i u).cmdOn = s.cmdOn := rfl
@[simp] theorem setUnit_cmdBright (s : State) (i : Channel) (u : CaptureUnit) : (s.setUnit i u).cmdBright = s.cmdBright := rfl
@[simp] theorem setUnit_cmdHue (s : State) (i : Channel) (u : CaptureUnit) : (s.setUnit i u).cmdHue = s.cmdHue := rfl
@[simp] theorem setUnit_cmdR (s : State) (i : Channel) (u : CaptureUnit) : (s.setUnit i u).cmdR = s.cmdR := rfl
@[simp] theorem setUnit_cmdG (s : State) (i : Channel) (u : CaptureUnit) : (s.setUnit i u).cmdG = s.cmdG := rfl
@[simp] theorem setUnit_cmdB (s : State) (i : Channel) (u : CaptureUnit) : (s.setUnit i u).cmdB = s.cmdB := rfl
@[simp] theorem setUnit_outOn (s : State) (i : Channel) (u : CaptureUnit) : (s.setUnit i u).outOn = s.outOn := rfl
@[simp] theorem setUnit_outBright (s : State) (i : Channel) (u : CaptureUnit) : (s.setUnit i u).outBright = s.outBright := rfl
@[simp] theorem setUnit_outR (s : State) (i : Channel) (u : CaptureUnit) : (s.setUnit i u).outR = s.outR := rfl
@[simp] theorem setUnit_outG (s : State) (i : Channel) (u : CaptureUnit) : (s.setUnit i u).outG = s.outG := rfl
@[simp] theorem setUnit_outB (s : State) (i : Channel) (u : CaptureUnit) : (s.setUnit i u).outB = s.outB := rfl
@[simp] theorem setUnit_inp (s : State) (i : Channel) (u : CaptureUnit) : (s.setUnit i u).inp = s.inp := rfl
@[simp] theorem setUnit_stimulus (s : State) (i : Channel) (u : CaptureUnit) : (s.setUnit i u).stimulus = s.stimulus := rfl
@[simp] theorem setUnit_clock (s : State) (i : Channel) (u : CaptureUnit) : (s.setUnit i u).clock = s.clock := rfl
@[simp] theorem setUnit_emitted (s : State) (i : Channel) (u : CaptureUnit) : (s.setUnit i u).emitted = s.emitted := rfl

/-! ### `setColor` -/

@[simp] theorem setColor_cfg (s : State) (x : Rgb) : (s.setColor x).cfg = s.cfg := rfl
@[simp] theorem setColor_cap (s : State) (x : Rgb) : (s.setColor x).cap = s.cap := rfl
@[simp] theorem setColor_state (s : State) (x : Rgb) : (s.setColor x).state = s.state := rfl
@[simp] theorem setColor_iterStart (s : State) (x : Rgb) : (s.setColor x).iterStart = s.iterStart := rfl
@[simp] theorem setColor_snapW (s : State) (x : Rgb) : (s.setColor x).snapW = s.snapW := rfl
@[simp] theorem setColor_snapChg (s : State) (x : Rgb) : (s.setColor x).snapChg = s.snapChg := rfl
@[simp] theorem setColor_cmdOn (s : State) (x : Rgb) : (s.setColor x).cmdOn = s.cmdOn := rfl
@[simp] theorem setColor_cmdBright (s : State) (x : Rgb) : (s.setColor x).cmdBright = s.cmdBright := rfl
@[simp] theorem setColor_cmdHue (s : State) (x : Rgb) : (s.setColor x).cmdHue = s.cmdHue := rfl
@[simp] theorem setColor_cmdR (s : State) (x : Rgb) : (s.setColor x).cmdR = x.r := rfl
@[simp] theorem setColor_cmdG (s : State) (x : Rgb) : (s.setColor x).cmdG = x.g := rfl
@[simp] theorem setColor_cmdB (s : State) (x : Rgb) : (s.setColor x).cmdB = x.b := rfl
@[simp] theorem setColor_outOn (s : State) (x : Rgb) : (s.setColor x).outOn = s.outOn := rfl
@[simp] theorem setColor_outBright (s : State) (x : Rgb) : (s.setColor x).outBright = s.outBright := rfl
@[simp] theorem setColor_outR (s : State) (x : Rgb) : (s.setColor x).outR = s.outR := rfl
@[simp] theorem setColor_outG (s : State) (x : Rgb) : (s.setColor x).outG = s.outG := rfl
@[simp] theorem setColor_outB (s : State) (x : Rgb) : (s.setColor x).outB = s.outB := rfl
@[simp] theorem setColor_inp (s : State) (x : Rgb) : (s.setColor x).inp = s.inp := rfl
@[simp] theorem setColor_stimulus (s : State) (x : Rgb) : (s.setColor x).stimulus = s.stimulus := rfl
@[simp] theorem setColor_clock (s : State) (x : Rgb) : (s.setColor x).clock = s.clock := rfl
@[simp] theorem setColor_emitted (s : State) (x : Rgb) : (s.setColor x).emitted = s.emitted := rfl

/-! ### `recover` -/

@[simp] theorem recover_cfg (s : State) : s.recover.cfg = s.cfg := rfl
@[simp] theorem recover_cap (s : State) : s.recover.cap = s.cap := rfl
@[simp] theorem recover_state (s : State) : s.recover.state = fsmWait := rfl
@[simp] theorem recover_iterStart (s : State) : s.recover.iterStart = s.iterStart := rfl
@[simp] theorem recover_snapW (s : State) : s.recover.snapW = s.snapW := rfl
@[simp] theorem recover_snapChg (s : State) : s.recover.snapChg = s.snapChg := rfl
@[simp] theorem recover_cmdOn (s : State) : s.recover.cmdOn = s.cmdOn := rfl
@[simp] theorem recover_cmdBright (s : State) : s.recover.cmdBright = s.cmdBright := rfl
@[simp] theorem recover_cmdHue (s : State) : s.recover.cmdHue = s.cmdHue := rfl
@[simp] theorem recover_cmdR (s : State) : s.recover.cmdR = s.cmdR := rfl
@[simp] theorem recover_cmdG (s : State) : s.recover.cmdG = s.cmdG := rfl
@[simp] theorem recover_cmdB (s : State) : s.recover.cmdB = s.cmdB := rfl
@[simp] theorem recover_outOn (s : State) : s.recover.outOn = s.outOn := rfl
@[simp] theorem recover_outBright (s : State) : s.recover.outBright = s.outBright := rfl
@[simp] theorem recover_outR (s : State) : s.recover.outR = s.outR := rfl
@[simp] theorem recover_outG (s : State) : s.recover.outG = s.outG := rfl
@[simp] theorem recover_outB (s : State) : s.recover.outB = s.outB := rfl
@[simp] theorem recover_inp (s : State) : s.recover.inp = s.inp := rfl
@[simp] theorem recover_stimulus (s : State) : s.recover.stimulus = s.stimulus := rfl
@[simp] theorem recover_clock (s : State) : s.recover.clock = s.clock := rfl
@[simp] theorem recover_emitted (s : State) : s.recover.emitted = s.emitted := rfl

/-! ### `endOfClock` -/

@[simp] theorem endOfClock_cfg (s : State) : s.endOfClock.cfg = s.cfg := rfl
@[simp] theorem endOfClock_state (s : State) : s.endOfClock.state = s.state := rfl
@[simp] theorem endOfClock_iterStart (s : State) : s.endOfClock.iterStart = s.iterStart := rfl
@[simp] theorem endOfClock_snapW (s : State) : s.endOfClock.snapW = s.snapW := rfl
@[simp] theorem endOfClock_snapChg (s : State) : s.endOfClock.snapChg = s.snapChg := rfl
@[simp] theorem endOfClock_cmdOn (s : State) : s.endOfClock.cmdOn = s.cmdOn := rfl
@[simp] theorem endOfClock_cmdBright (s : State) : s.endOfClock.cmdBright = s.cmdBright := rfl
@[simp] theorem endOfClock_cmdHue (s : State) : s.endOfClock.cmdHue = s.cmdHue := rfl
@[simp] theorem endOfClock_cmdR (s : State) : s.endOfClock.cmdR = s.cmdR := rfl
@[simp] theorem endOfClock_cmdG (s : State) : s.endOfClock.cmdG = s.cmdG := rfl
@[simp] theorem endOfClock_cmdB (s : State) : s.endOfClock.cmdB = s.cmdB := rfl
@[simp] theorem endOfClock_outOn (s : State) : s.endOfClock.outOn = s.outOn := rfl
@[simp] theorem endOfClock_outBright (s : State) : s.endOfClock.outBright = s.outBright := rfl
@[simp] theorem endOfClock_outR (s : State) : s.endOfClock.outR = s.outR := rfl
@[simp] theorem endOfClock_outG (s : State) : s.endOfClock.outG = s.outG := rfl
@[simp] theorem endOfClock_outB (s : State) : s.endOfClock.outB = s.outB := rfl
@[simp] theorem endOfClock_inp (s : State) : s.endOfClock.inp = s.drawInputs := rfl
@[simp] theorem endOfClock_stimulus (s : State) : s.endOfClock.stimulus = s.stimulus.tail := rfl
@[simp] theorem endOfClock_clock (s : State) : s.endOfClock.clock = s.clock + 1 := rfl
@[simp] theorem endOfClock_emitted (s : State) : s.endOfClock.emitted = s.emitted := rfl

@[simp] theorem endOfClock_unit (s : State) (i : Channel) :
    s.endOfClock.unit i = { s.unit i with sync := (s.unit i).sync.shift (lineOf s.inp i) } := by
  cases i <;> rfl

theorem drawInputs_cons {s : State} {x : Inputs} {xs : List Inputs} (h : s.stimulus = x :: xs) :
    s.drawInputs = x := by
  simp [State.drawInputs, h]

/-! ### The synchroniser -/

/-- Shifting keeps the number of stages (R18). -/
@[simp] theorem Synchroniser.stages_shift (y : Synchroniser) (line : Bool) : (y.shift line).stages = y.stages := by
  simp [Synchroniser.stages, Synchroniser.shift]

/-- Placing a level keeps the number of stages. -/
@[simp] theorem Synchroniser.stages_withLvl (y : Synchroniser) (v : Bool) : (y.withLvl v).stages = y.stages := by
  obtain ⟨first, rest⟩ := y
  cases rest <;> simp [Synchroniser.stages, Synchroniser.withLvl]

/-- The placed level is the level read. -/
@[simp] theorem Synchroniser.lvl_withLvl (y : Synchroniser) (v : Bool) : (y.withLvl v).lvl = v := by
  obtain ⟨first, rest⟩ := y
  cases rest <;> simp [Synchroniser.lvl, Synchroniser.withLvl, List.getLastD_eq_getLast?]

/-- With two stages, the level after a clock is the first stage before it (R55). -/
theorem Synchroniser.lvl_shift_two (a b line : Bool) : (Synchroniser.shift ⟨a, [b]⟩ line).lvl = a := rfl

end Sys2Proof.Machine
end

