-- ==== Sys2Proof/Laws/Clock.lean ====
section
/-! SUPPORT. What a clock can do, said once: every operation answers a next state, and a step of a legal build is
the simultaneous next state of the rules. -/
namespace Sys2Proof.Machine

/-! ### Operations -/

/-- Every operation answers a next state (R96). -/
theorem exec_answers_next (i : Instr) (s : State) : ∃ t, exec i s = .next t := by
  cases i <;> exact ⟨_, rfl⟩

@[simp] theorem andThen_next (s : State) (f : State → Host.Outcome State Fault Refusal) :
    andThen (.next s) f = f s := rfl

/-! ### The selected sector -/

/-- A legal build's sector is one of the six (R51). -/
theorem sectorOf_lt {c : Config} (h : c.legal = true) (hue : Nat) : (sectorOf c hue).toNat < 6 := by
  simp only [Config.legal, Config.legalR9, Config.fitsWidths, Bool.and_eq_true, decide_eq_true_eq] at h
  have hspan : hueReduced c hue < c.hueSpan := Nat.mod_lt _ (by omega)
  have hdiv : hueReduced c hue / c.sectorDeg < 6 := by
    rw [Nat.div_lt_iff_lt_mul (by omega)]
    omega
  rw [sectorOf, BitVec.toNat_ofNat]
  exact lt_of_le_of_lt (Nat.mod_le _ _) hdiv

/-- The operation of a defined sector code writes that row of R91. -/
theorem runSelector_sec (word : BitVec 3) (h : word.toNat < 6) (s : State) :
    runSelector (.sec word) s = .next (s.setColor (sectorRow s.cfg word.toNat (residueOf s.cfg s.hueIn))) := by
  have hw : word = 0#3 ∨ word = 1#3 ∨ word = 2#3 ∨ word = 3#3 ∨ word = 4#3 ∨ word = 5#3 := by
    revert h; revert word; decide
  rcases hw with rfl | rfl | rfl | rfl | rfl | rfl <;> rfl

/-! ### A capture unit's clock -/

/-- The registers of unit `i` after a clock (R55, R56, R58, R59, R69, R107). -/
def unitNext (s : State) (i : Channel) : CaptureUnit where
  sync := (s.unit i).sync.shift (lineOf s.inp i)
  prevLevel := s.lvl i
  riseTs :=
    if s.inp.rst then 0
    else if !(s.unit i).prevLevel && s.lvl i then s.now else (s.unit i).riseTs
  riseValid :=
    if s.inp.rst then false
    else if !(s.unit i).prevLevel && s.lvl i then true else (s.unit i).riseValid
  width :=
    if s.inp.rst then s.neutral
    else if (s.unit i).prevLevel && !s.lvl i then s.published i else (s.unit i).width
  changed := changedNext s.inp.rst (s.capPub i) (decide (s.state = fsmSnap)) (s.unit i).changed

/-- `u` is unit `i` of `s` but for a flag that the snapshot may have cleared, before the unit's own operation. -/
structure BeforeCapture (s t : State) (i : Channel) : Prop where
  cfg : t.cfg = s.cfg
  inp : t.inp = s.inp
  unit : t.unit i = { s.unit i with
    changed := if !s.inp.rst && decide (s.state = fsmSnap) then (s.snapClear i).changed else (s.unit i).changed }

/-- The operation `CAPSEL` selects gives unit `i` its next registers, but for the synchroniser's shift. -/
theorem runSelector_cap {s t : State} {i : Channel} (h : BeforeCapture s t i) :
    runSelector (.cap i (s.capsel i)) t =
      .next (t.setUnit i { unitNext s i with sync := (s.unit i).sync }) := by
  have hl : t.lvl i = s.lvl i := by simp [State.lvl, h.unit]
  have hn : t.neutral = s.neutral := by simp [State.neutral, h.cfg]
  have ht : t.now = s.now := by simp [State.now, h.cfg, h.inp]
  have hp : t.published i = s.published i := by
    simp [State.published, State.elapsed, State.neutral, h.unit, h.cfg, ht]
  simp only [runSelector, decode, State.capsel]
  cases hr : s.inp.rst <;> cases hpl : (s.unit i).prevLevel <;> cases hlv : s.lvl i <;>
    simp [decodeCap, bits3, exec, execCapHoldLow, execCapHoldHigh, execCapRise, execCapFall, execCapReset,
      State.holdLevel, unitNext, h.unit, ht, hl, hn, hp, hr, hpl, hlv, changedNext, State.capPub,
      State.snapClear]

/-! ### The control loop's clock -/

/-- The state after the FSM's and the transform's operations of a clock (R67 to R79, R107). -/
def fsmNext (s : State) : State :=
  if s.inp.rst then
    { s with
      snapW := ⟨s.neutral, s.neutral, s.neutral⟩, snapChg := ⟨false, false, false⟩
      state := fsmSnap, iterStart := 0
      cmdOn := false, cmdBright := 0, cmdHue := 0, cmdR := 0, cmdG := 0, cmdB := 0
      outOn := false, outBright := 0, outR := 0, outG := 0, outB := 0 }
  else if s.state = fsmSnap then
    { s with
      snapW := s.cap.map CaptureUnit.width, snapChg := s.cap.map CaptureUnit.changed
      iterStart := s.now, state := fsmDerive
      cap := ⟨s.snapClear .ch1, s.snapClear .ch2, s.snapClear .ch3⟩ }
  else if s.state = fsmDerive then
    { s with
      cmdOn := fOnoff s.cfg s.snapW.ch1, cmdBright := fBright s.cfg s.snapW.ch2
      cmdHue := fHue s.cfg s.snapW.ch3
      cmdR := (hsv s.cfg (fHue s.cfg s.snapW.ch3)).r
      cmdG := (hsv s.cfg (fHue s.cfg s.snapW.ch3)).g
      cmdB := (hsv s.cfg (fHue s.cfg s.snapW.ch3)).b
      state := fsmApply }
  else if s.state = fsmApply then
    { s with
      outOn := s.cmdOn, outBright := s.cmdBright, outR := s.cmdR, outG := s.cmdG, outB := s.cmdB
      state := fsmLog }
  else if s.state = fsmLog then
    { s with
      emitted := if s.anyChanged then s.emitted ++ [s.dbgRecord] else s.emitted
      state := fsmWait }
  else if s.state = fsmWait then
    (if s.cadenceDue then { s with state := fsmSnap } else s)
  else { s with state := fsmWait }

/-- The FSM never writes the build or the inputs, and of a capture unit only the flag its snapshot clears. -/
theorem fsmNext_beforeCapture (s : State) (i : Channel) : BeforeCapture s (fsmNext s) i := by
  unfold fsmNext
  split
  · next h => exact ⟨rfl, rfl, by simp [h, State.unit]⟩
  · next h =>
    split
    · next h' => exact ⟨rfl, rfl, by cases i <;> simp [h, h', State.snapClear, State.unit, PerChannel.get]⟩
    · next h' => (repeat' split) <;> exact ⟨rfl, rfl, by simp [h', State.unit]⟩

/-- The FSM's and the transform's selectors give `fsmNext`. -/
theorem runSelectors_fsm {s : State} (hl : s.cfg.legal = true) :
    runSelectors (.fsm s.fsmsel :: (if s.inDerive then [.sec s.secsel] else [])) s = .next (fsmNext s) := by
  cases hr : s.inp.rst with
  | true =>
    have hd : s.inDerive = false := by simp [State.inDerive, hr]
    have hf : decodeFsm s.fsmsel = .fsmReset s.state := by
      simp only [State.fsmsel, hr]
      generalize s.state = code
      revert code
      decide
    simp [runSelectors, runSelector, decode, hf, hd, exec, execFsmReset, fsmNext, hr]
  | false =>
    by_cases hd : s.state = fsmDerive
    · have hs := runSelector_sec s.secsel (sectorOf_lt hl s.hueIn)
      have hf : decodeFsm s.fsmsel = .sDerive := by rw [State.fsmsel, hr, hd]; rfl
      have hin : s.inDerive = true := by simp [State.inDerive, hr, hd]
      simp only [hin, if_true, runSelectors, hs]
      simp [runSelector, decode, hf, exec, execSDerive, fsmNext, hr, hd, State.setColor, State.hueIn,
        State.secsel, hsv]
    · have hd' : s.inDerive = false := by simp [State.inDerive, hd]
      have hcode : ∀ code : FsmCode, code = fsmWait ∨ code = fsmSnap ∨ code = fsmDerive ∨ code = fsmApply ∨
          code = fsmLog ∨ code = 5#3 ∨ code = 6#3 ∨ code = 7#3 := by decide
      have hrun : ∀ i, decodeFsm s.fsmsel = i → runSelectors (.fsm s.fsmsel ::
          (if s.inDerive then [.sec s.secsel] else [])) s = andThen (exec i s) .next := by
        intro i hi
        simp [hd', runSelectors, runSelector, decode, hi]
      have hsel : s.fsmsel = 0b0#1 ++ s.state := by rw [State.fsmsel, hr]; rfl
      rcases hcode s.state with h | h | h | h | h | h | h | h
      · rw [hrun .sWait (by rw [hsel, h]; rfl)]; simp [exec, execSWait, fsmNext, hr, h]
      · rw [hrun .sSnap (by rw [hsel, h]; rfl)]; simp [exec, execSSnap, fsmNext, hr, h]
      · exact absurd h hd
      · rw [hrun .sApply (by rw [hsel, h]; rfl)]; simp [exec, execSApply, fsmNext, hr, h]
      · rw [hrun .sLog (by rw [hsel, h]; rfl)]; simp [exec, execSLog, fsmNext, hr, h]
      · rw [hrun .fsmReserved5 (by rw [hsel, h]; rfl)]
        simp [exec, execFsmReserved5, State.recover, fsmNext, hr, h]
      · rw [hrun (.fsmReserved67 false) (by rw [hsel, h]; rfl)]
        simp [exec, execFsmReserved67, State.recover, fsmNext, hr, h]
      · rw [hrun (.fsmReserved67 true) (by rw [hsel, h]; rfl)]
        simp [exec, execFsmReserved67, State.recover, fsmNext, hr, h]

/-! ### The whole clock -/

theorem runSelectors_append (xs ys : List Selector) (s : State) :
    runSelectors (xs ++ ys) s = andThen (runSelectors xs s) (runSelectors ys) := by
  induction xs generalizing s with
  | nil => rfl
  | cons x xs ih =>
    simp only [List.cons_append, runSelectors]
    cases runSelector x s <;> simp [andThen, ih]

/-- The state after a clock of a legal build: every register at its rule's next value. -/
def clockNext (s : State) : State :=
  { fsmNext s with
    cap := ⟨unitNext s .ch1, unitNext s .ch2, unitNext s .ch3⟩
    inp := s.drawInputs
    stimulus := s.stimulus.tail
    clock := s.clock + 1 }

theorem fsmNext_environment (s : State) :
    (fsmNext s).cfg = s.cfg ∧ (fsmNext s).inp = s.inp ∧ (fsmNext s).stimulus = s.stimulus ∧
      (fsmNext s).clock = s.clock := by
  unfold fsmNext
  (repeat' split) <;> exact ⟨rfl, rfl, rfl, rfl⟩

theorem BeforeCapture.setUnit_other {s t : State} {i j : Channel} (h : BeforeCapture s t i) (u : CaptureUnit)
    (hij : i ≠ j) : BeforeCapture s (t.setUnit j u) i :=
  ⟨h.cfg, h.inp, by rw [unit_setUnit_other t u hij, h.unit]⟩

/-- A step of a legal build answers `clockNext` (R10, R101). -/
theorem step_legal {s : State} (hl : s.cfg.legal = true) : step s = .next (clockNext s) := by
  have h1 := fsmNext_beforeCapture s .ch1
  have h2 := (fsmNext_beforeCapture s .ch2).setUnit_other { unitNext s .ch1 with sync := (s.unit .ch1).sync }
    (show Channel.ch2 ≠ .ch1 by decide)
  have h3 := ((fsmNext_beforeCapture s .ch3).setUnit_other { unitNext s .ch1 with sync := (s.unit .ch1).sync }
    (show Channel.ch3 ≠ .ch1 by decide)).setUnit_other { unitNext s .ch2 with sync := (s.unit .ch2).sync }
    (show Channel.ch3 ≠ .ch2 by decide)
  have hsel : s.selectors = (.fsm s.fsmsel :: (if s.inDerive then [.sec s.secsel] else [])) ++
      [.cap .ch1 (s.capsel .ch1), .cap .ch2 (s.capsel .ch2), .cap .ch3 (s.capsel .ch3)] := rfl
  obtain ⟨hc, hi, hst, hck⟩ := fsmNext_environment s
  simp only [step, clockStep, hl, if_true, hsel, runSelectors_append, runSelectors_fsm hl, andThen_next]
  simp only [runSelectors, runSelector_cap h1, runSelector_cap h2, runSelector_cap h3, andThen_next]
  simp [State.endOfClock, State.nextInputs, State.shiftSyncs, State.drawInputs, State.setUnit, PerChannel.set,
    clockNext, hi, hst, hck, unitNext]

/-- A step of an illegal build is refused (R9). -/
theorem step_illegal {s : State} (hl : s.cfg.legal = false) : step s = .refused .illegalConfiguration := by
  simp [step, clockStep, hl]

/-- What a step that answers a next state did. -/
theorem step_next {s t : State} (h : step s = .next t) : s.cfg.legal = true ∧ t = clockNext s := by
  cases hl : s.cfg.legal with
  | false => simp [step_illegal hl] at h
  | true =>
    rw [step_legal hl] at h
    exact ⟨rfl, by injection h with h; exact h.symm⟩

@[simp] theorem clockNext_unit (s : State) (i : Channel) : (clockNext s).unit i = unitNext s i := by
  cases i <;> rfl

/-! ### Runs -/

theorem run_zero (s : State) : RunsTo 0 s s := rfl

/-- A run of `n + 1` clocks is a step and a run of `n` clocks. -/
theorem run_succ {n : Nat} {s t : State} :
    RunsTo (n + 1) s t ↔ ∃ u, step s = .next u ∧ RunsTo n u t := by
  have hstep : Sys2Proof.core.step s = step s := rfl
  unfold RunsTo
  cases hs : step s with
  | next u => simp [Host.Core.run, hstep, hs]
  | fault r => simp [Host.Core.run, hstep, hs]
  | refused r => simp [Host.Core.run, hstep, hs]

end Sys2Proof.Machine
end

