-- ==== Sys2Proof/Laws/Functions.lean ====
section
/-! SUPPORT. What the shared functions give: the clauses of a legal build, the bounds of the linear map, the exact
table, and the runs' induction. -/
namespace Sys2Proof.Machine

/-- The clauses of a legal build as propositions (R9, R8). -/
structure LegalClauses (c : Config) : Prop where
  minMax : c.wMin < c.wMax
  maxFits : c.wMax < 2 ^ c.widthW
  minNeutral : c.wMin ≤ c.wNeutral
  neutralMax : c.wNeutral ≤ c.wMax
  minOn : c.wMin ≤ c.onThreshold
  onMax : c.onThreshold ≤ c.wMax
  dead : c.deadzone < c.intMax
  cadencePos : 0 < c.cadenceUs
  cadenceFits : c.cadenceUs < 2 ^ c.tsW
  span : c.hueSpan = 6 * c.sectorDeg
  stages : 1 ≤ c.syncStages
  intFits : c.intMax < 2 ^ c.intensityW
  hueFits : c.hueSpan < 2 ^ c.hueW
  widthInTs : c.widthW ≤ c.tsW
  degPos : 0 < c.sectorDeg
  lut : c.hueLut.length = c.sectorDeg + 1
  lutFits : ∀ u ∈ c.hueLut, u < 2 ^ c.intensityW

theorem legal_iff (c : Config) : c.legal = true ↔ LegalClauses c := by
  simp only [Config.legal, Config.legalR9, Config.fitsWidths, Bool.and_eq_true, decide_eq_true_eq, List.all_eq_true]
  constructor
  · rintro ⟨⟨⟨⟨⟨⟨⟨⟨⟨⟨⟨h1, h2⟩, h3⟩, h4⟩, h5⟩, h6⟩, h7⟩, h8⟩, h9⟩, h10⟩, h11⟩, ⟨⟨⟨⟨h12, h13⟩, h14⟩, h15⟩, h16⟩, h17⟩
    exact ⟨h1, h2, h3, h4, h5, h6, h7, h8, h9, h10, h11, h12, h13, h14, h15, h16, h17⟩
  · intro h
    exact ⟨⟨⟨⟨⟨⟨⟨⟨⟨⟨⟨h.minMax, h.maxFits⟩, h.minNeutral⟩, h.neutralMax⟩, h.minOn⟩, h.onMax⟩, h.dead⟩, h.cadencePos⟩,
      h.cadenceFits⟩, h.span⟩, h.stages⟩, ⟨⟨⟨⟨h.intFits, h.hueFits⟩, h.widthInTs⟩, h.degPos⟩, h.lut⟩, h.lutFits⟩

/-- The default build is legal, whatever the OPEN parameters. -/
theorem standard_legal (b : Bool) (eol : List Char) (f : Nat) : (Config.standard b eol f).legal = true := by
  simp [Config.legal, Config.legalR9, Config.fitsWidths, Config.standard, Config.exactLut]

theorem StandardBuild.legal {c : Config} (h : StandardBuild c) : c.legal = true := by
  rw [h]
  exact standard_legal _ _ _

/-- `W_NEUTRAL` is in range (R9, R30). -/
theorem neutral_inRange {s : State} (h : s.cfg.legal = true) : WidthInRange s.cfg s.neutral :=
  ⟨((legal_iff _).mp h).minNeutral, ((legal_iff _).mp h).neutralMax⟩

/-- A published width is in range (R30). -/
theorem published_inRange {s : State} (i : Channel) (h : s.cfg.legal = true) :
    WidthInRange s.cfg (s.published i) := by
  have hmax := ((legal_iff _).mp h).maxFits
  unfold State.published
  split
  · next hp =>
    simp only [inrange, Bool.and_eq_true, decide_eq_true_eq] at hp
    rw [truncate_of_lt (lt_of_le_of_lt hp.2.2 hmax)]
    exact hp.2
  · exact neutral_inRange h

/-- A width in range fits its register (R8, R9). -/
theorem WidthInRange.fits {c : Config} {w : Nat} (hw : WidthInRange c w) (h : c.legal = true) :
    w < 2 ^ c.widthW :=
  lt_of_le_of_lt hw.2 ((legal_iff _).mp h).maxFits

/-- The linear map stays in its range (R73). -/
theorem fMap_le (c : Config) (w : Nat) (m : Nat) : fMap c w m ≤ m := by
  unfold fMap clamp
  omega

theorem fHue_le (c : Config) (w : Nat) : fHue c w ≤ c.hueSpan :=
  fMap_le c w c.hueSpan

theorem fBright_le (c : Config) (w : Nat) : fBright c w ≤ c.intMax := by
  unfold fBright
  split
  · exact Nat.zero_le _
  · exact fMap_le c w c.intMax

/-! ### The transform of a legal build -/

theorem lutAt_lt {c : Config} (h : c.legal = true) {n : Nat} (hn : n ≤ c.sectorDeg) : lutAt c n < 2 ^ c.intensityW := by
  have hc := (legal_iff _).mp h
  have hlen : n < c.hueLut.length := by rw [hc.lut]; omega
  rw [lutAt, List.getElem?_eq_getElem hlen]
  exact hc.lutFits _ (List.getElem_mem hlen)

theorem xiAt_lt {c : Config} (h : c.legal = true) (sector : Nat) {ρ : Nat} (hρ : ρ ≤ c.sectorDeg) :
    xiAt c sector ρ < 2 ^ c.intensityW := by
  unfold xiAt
  split
  · exact lutAt_lt h hρ
  · exact lutAt_lt h (Nat.sub_le _ _)

theorem residueOf_lt {c : Config} (h : c.legal = true) (hue : Nat) : residueOf c hue < c.sectorDeg :=
  Nat.mod_lt _ ((legal_iff _).mp h).degPos

/-- The rows of the six sectors fit the color registers (R8, R91). -/
theorem sectorRow_fits {c : Config} (h : c.legal = true) {sector ρ : Nat} (hs : sector < 6) (hρ : ρ ≤ c.sectorDeg) :
    Rgb.Fits c (sectorRow c sector ρ) := by
  have hC : chroma c < 2 ^ c.intensityW := ((legal_iff _).mp h).intFits
  have h0 : 0 < 2 ^ c.intensityW := Nat.two_pow_pos _
  have hX := fun k => xiAt_lt h k hρ
  match sector, hs with
  | 0, _ => exact ⟨hC, hX 0, h0⟩
  | 1, _ => exact ⟨hX 1, hC, h0⟩
  | 2, _ => exact ⟨h0, hC, hX 2⟩
  | 3, _ => exact ⟨h0, hX 3, hC⟩
  | 4, _ => exact ⟨hX 4, h0, hC⟩
  | 5, _ => exact ⟨hC, h0, hX 5⟩

theorem hsv_fits {c : Config} (h : c.legal = true) (hue : Nat) : Rgb.Fits c (hsv c hue) :=
  sectorRow_fits h (sectorOf_lt h hue) (residueOf_lt h hue).le

/-! ### Registers keep values of their widths -/

theorem RegistersFit.setUnit {s : State} (hf : RegistersFit s) {i : Channel} {u : CaptureUnit}
    (ht : u.riseTs < 2 ^ s.cfg.tsW) (hw : u.width < 2 ^ s.cfg.widthW) : RegistersFit (s.setUnit i u) := by
  have hunit (j : Channel) : ((s.setUnit i u).unit j).riseTs < 2 ^ s.cfg.tsW ∧
      ((s.setUnit i u).unit j).width < 2 ^ s.cfg.widthW := by
    by_cases hj : j = i
    · subst hj
      rw [unit_setUnit_same]
      exact ⟨ht, hw⟩
    · rw [unit_setUnit_other s u hj]
      exact ⟨hf.riseTs j, hf.width j⟩
  exact { hf with riseTs := fun j => (hunit j).1, width := fun j => (hunit j).2 }

theorem RegistersFit.setColor {s : State} (hf : RegistersFit s) {x : Rgb} (hx : Rgb.Fits s.cfg x) :
    RegistersFit (s.setColor x) :=
  { hf with cmdColor := hx }

/-- Every operation of a legal build leaves every register with a value of its width (R8, R11). -/
theorem exec_registersFit {i : Instr} {s t : State} (hl : s.cfg.legal = true) (hf : RegistersFit s)
    (h : exec i s = .next t) : RegistersFit t := by
  have hc := (legal_iff _).mp hl
  have hn := (neutral_inRange hl).fits hl
  have hnow : s.now < 2 ^ s.cfg.tsW := now_lt s
  have hρ := (residueOf_lt hl s.hueIn).le
  cases i <;> (injection h with h; subst h)
  case capHoldLow i => exact hf.setUnit (hf.riseTs i) (hf.width i)
  case capHoldHigh i => exact hf.setUnit (hf.riseTs i) (hf.width i)
  case capRise i => exact hf.setUnit hnow (hf.width i)
  case capFall i => exact hf.setUnit (hf.riseTs i) ((published_inRange i hl).fits hl)
  case capReset i _ _ => exact hf.setUnit (Nat.two_pow_pos _) hn
  case sWait => split <;> exact { hf with }
  case sSnap =>
    refine { hf with riseTs := fun i => ?_, width := fun i => ?_, iterStart := hnow, snapW := fun i => ?_ }
    · cases i <;> exact hf.riseTs _
    · cases i <;> exact hf.width _
    · rw [PerChannel.get_map]
      exact hf.width i
  case sDerive =>
    exact { hf with
      cmdBright := lt_of_le_of_lt (fBright_le _ _) hc.intFits
      cmdHue := lt_of_le_of_lt (fHue_le _ _) hc.hueFits
      cmdColor := hsv_fits hl _ }
  case sApply => exact { hf with outBright := hf.cmdBright, outColor := hf.cmdColor }
  case sLog => exact { hf with }
  case fsmReserved5 => exact { hf with }
  case fsmReserved67 => exact { hf with }
  case fsmReset =>
    have h0 (n : Nat) : 0 < 2 ^ n := Nat.two_pow_pos n
    exact { hf with
      iterStart := h0 _, snapW := fun i => by cases i <;> exact hn
      cmdBright := h0 _, cmdHue := h0 _, cmdColor := ⟨h0 _, h0 _, h0 _⟩
      outBright := h0 _, outColor := ⟨h0 _, h0 _, h0 _⟩ }
  case sector0 => exact hf.setColor (sectorRow_fits hl (by decide) hρ)
  case sector1 => exact hf.setColor (sectorRow_fits hl (by decide) hρ)
  case sector2 => exact hf.setColor (sectorRow_fits hl (by decide) hρ)
  case sector3 => exact hf.setColor (sectorRow_fits hl (by decide) hρ)
  case sector4 => exact hf.setColor (sectorRow_fits hl (by decide) hρ)
  case sector5 => exact hf.setColor (sectorRow_fits hl (by decide) hρ)

/-- The default table is the closed form `floor(17·n/4)` (R93). -/
theorem exactLut_eq : ∀ n, n ≤ 60 → Config.exactLut[n]? = some (17 * n / 4) := by
  intro n hn
  have h : ∀ m : Fin 61, Config.exactLut[m.val]? = some (17 * m.val / 4) := by decide
  exact h ⟨n, by omega⟩

/-! ### The default build -/

theorem StandardBuild.eq {c : Config} (h : StandardBuild c) : ∃ b eol f, c = Config.standard b eol f :=
  ⟨_, _, _, h⟩

/-- The linear map at the defaults (R73). -/
theorem fMap_standard (b : Bool) (eol : List Char) (f : Nat) (w : Nat) (m : Nat) :
    fMap (Config.standard b eol f) w m = min (((w : Int) - 1000) * m / 1000).toNat m := by
  simp only [fMap, clamp, Config.standard]
  rw [Int.fdiv_eq_ediv_of_nonneg _ (by norm_num)]
  norm_num
  omega

/-- The brightness at the defaults (R74). -/
theorem fBright_standard (b : Bool) (eol : List Char) (f : Nat) (w : Nat) :
    fBright (Config.standard b eol f) w =
      if min (((w : Int) - 1000) * 255 / 1000).toNat 255 ≤ 20 then 0
      else min (((w : Int) - 1000) * 255 / 1000).toNat 255 := by
  have h := fMap_standard b eol f w 255
  have hi : (Config.standard b eol f).intMax = 255 := rfl
  have hd : (Config.standard b eol f).deadzone = 20 := rfl
  rw [fBright, hi, hd, h]
  rfl

/-- The hue at the defaults (R75). -/
theorem fHue_standard (b : Bool) (eol : List Char) (f : Nat) (w : Nat) :
    fHue (Config.standard b eol f) w = min (((w : Int) - 1000) * 360 / 1000).toNat 360 :=
  fMap_standard b eol f w 360

/-- The table at the defaults (R93). -/
theorem lutAt_standard (b : Bool) (eol : List Char) (f : Nat) {n : Nat} (h : n ≤ 60) :
    lutAt (Config.standard b eol f) n = 17 * n / 4 := by
  simp [lutAt, Config.standard, exactLut_eq n h]

/-- `xi` at the defaults, in the closed form of R89. -/
theorem xiAt_standard (b : Bool) (eol : List Char) (f sector : Nat) {ρ : Nat} (h : ρ ≤ 60) :
    xiAt (Config.standard b eol f) sector ρ = if sector % 2 = 0 then 17 * ρ / 4 else 17 * (60 - ρ) / 4 := by
  have hd : (Config.standard b eol f).sectorDeg = 60 := rfl
  simp only [xiAt, hd, lutAt_standard b eol f h, lutAt_standard b eol f (Nat.sub_le 60 ρ)]

/-- The rows of R91 at the defaults, in the closed form of R89. -/
theorem sectorRow_standard (b : Bool) (eol : List Char) (f : Nat) {ρ : Nat} (h : ρ ≤ 60) :
    sectorRow (Config.standard b eol f) 0 ρ = ⟨255, 17 * ρ / 4, 0⟩ ∧
    sectorRow (Config.standard b eol f) 1 ρ = ⟨17 * (60 - ρ) / 4, 255, 0⟩ ∧
    sectorRow (Config.standard b eol f) 2 ρ = ⟨0, 255, 17 * ρ / 4⟩ ∧
    sectorRow (Config.standard b eol f) 3 ρ = ⟨0, 17 * (60 - ρ) / 4, 255⟩ ∧
    sectorRow (Config.standard b eol f) 4 ρ = ⟨17 * ρ / 4, 0, 255⟩ ∧
    sectorRow (Config.standard b eol f) 5 ρ = ⟨255, 0, 17 * (60 - ρ) / 4⟩ := by
  have hc : chroma (Config.standard b eol f) = 255 := rfl
  simp [sectorRow, xiAt_standard b eol f _ h, hc]

/-- The sector and the residue at the defaults (R87, R88). -/
theorem hsv_standard (b : Bool) (eol : List Char) (f : Nat) (h : Nat) :
    hsv (Config.standard b eol f) h = sectorRow (Config.standard b eol f) (h % 360 / 60) (h % 360 % 60) := by
  have hs : (sectorOf (Config.standard b eol f) h).toNat = h % 360 / 60 := by
    show (BitVec.ofNat 3 (h % 360 / 60)).toNat = _
    rw [BitVec.toNat_ofNat]
    exact Nat.mod_eq_of_lt (by omega)
  rw [hsv, hs]
  rfl

/-! ### Selectors and publishes -/

theorem inrange_iff (c : Config) (e : Nat) : inrange c e = true ↔ c.wMin ≤ e ∧ e ≤ c.wMax := by
  simp only [inrange, Bool.and_eq_true, decide_eq_true_eq]

/-- `CAPSEL`, bit by bit (R45). -/
theorem capsel_iff {s : State} {i : Channel} {a b c : Bool} :
    s.capsel i = bits3 a b c ↔ s.inp.rst = a ∧ (s.unit i).prevLevel = b ∧ s.lvl i = c := by
  unfold State.capsel
  generalize s.inp.rst = x
  generalize (s.unit i).prevLevel = y
  generalize s.lvl i = z
  revert a b c x y z
  decide

theorem capsel_rise {s : State} {i : Channel} :
    s.capsel i = 0b001#3 ↔ s.inp.rst = false ∧ (s.unit i).prevLevel = false ∧ s.lvl i = true :=
  capsel_iff (a := false) (b := false) (c := true)

theorem capsel_fall {s : State} {i : Channel} :
    s.capsel i = 0b010#3 ↔ s.inp.rst = false ∧ (s.unit i).prevLevel = true ∧ s.lvl i = false :=
  capsel_iff (a := false) (b := true) (c := false)

/-- Updating one unit changes nothing else. -/
theorem onlyUnit_setUnit (i : Channel) (s : State) (u : CaptureUnit) : OnlyUnit i s (s.setUnit i u) :=
  ⟨fun _ hj => unit_setUnit_other s u hj, rfl⟩

/-- Writing back what a unit holds changes nothing. -/
theorem setUnit_self {s : State} {i : Channel} {u : CaptureUnit} (h : u = s.unit i) : s.setUnit i u = s := by
  subst h
  cases i <;> rfl

/-! ### The control loop's next values -/

/-- The build is never written (R33). -/
@[simp] theorem clockNext_cfg (s : State) : (clockNext s).cfg = s.cfg :=
  (fsmNext_environment s).1

/-- The control loop after an S_SNAP clock (R68). -/
theorem fsmNext_snap {s : State} (hr : s.inp.rst = false) (hs : s.state = fsmSnap) :
    fsmNext s = { s with
      snapW := s.cap.map CaptureUnit.width, snapChg := s.cap.map CaptureUnit.changed
      iterStart := s.now, state := fsmDerive
      cap := ⟨s.snapClear .ch1, s.snapClear .ch2, s.snapClear .ch3⟩ } := by
  simp [fsmNext, hr, hs]

/-! ### Runs -/

/-- A run of `n + 1` clocks is a run of `n` clocks and a step. -/
theorem run_succ_last {n : Nat} {s t : State} :
    RunsTo (n + 1) s t ↔ ∃ u, RunsTo n s u ∧ step u = .next t := by
  induction n generalizing s with
  | zero =>
    rw [run_succ]
    constructor
    · rintro ⟨u, hu, hr⟩
      have h' : u = t := by injection hr
      exact ⟨s, rfl, h' ▸ hu⟩
    · rintro ⟨u, hr, hu⟩
      have h' : s = u := by injection hr
      exact ⟨t, h' ▸ hu, rfl⟩
  | succ n ih =>
    rw [run_succ]
    constructor
    · rintro ⟨v, hv, hr⟩
      obtain ⟨u, h1, h2⟩ := ih.mp hr
      exact ⟨u, run_succ.mpr ⟨v, hv, h1⟩, h2⟩
    · rintro ⟨u, h1, h2⟩
      obtain ⟨v, hv, hr⟩ := run_succ.mp h1
      exact ⟨v, hv, ih.mpr ⟨u, hr, h2⟩⟩

/-- A predicate that every step keeps holds along a run. -/
theorem run_induction {P : State → Prop} (hstep : ∀ s t, P s → step s = .next t → P t) :
    ∀ (n : Nat) (s t : State), P s → RunsTo n s t → P t := by
  intro n
  induction n with
  | zero =>
    intro s t hs h
    have h' : s = t := by injection h
    exact h' ▸ hs
  | succ n ih =>
    intro s t hs h
    obtain ⟨u, hu, hr⟩ := run_succ.mp h
    exact ih u t (hstep s u hs hu) hr

/-- A predicate kept by the steps whose clock satisfies `Q` holds along a run whose clocks all do. -/
theorem run_induction_while {P Q : State → Prop} (hstep : ∀ s t, P s → Q s → step s = .next t → P t) :
    ∀ (n : Nat) (s t : State), P s → RunsTo n s t → RunSatisfies n s Q → P t := by
  intro n
  induction n with
  | zero =>
    intro s t hs h _
    have h' : s = t := by injection h
    exact h' ▸ hs
  | succ n ih =>
    intro s t hs h hq
    obtain ⟨u, hu, hr⟩ := run_succ.mp h
    refine ih u t (hstep s u hs (hq 0 (by omega) s rfl) hu) hr ?_
    intro k hk v hv
    exact hq (k + 1) (by omega) v (run_succ.mpr ⟨u, hu, hv⟩)

end Sys2Proof.Machine
end

