-- ==== Sys2Proof/Laws/PerInstr.lean ====
section
/-! SUPPORT. A family about every operation as syntax: its selector word is covered by a row of the opcode map
(spec/30_encoding.md section 8) with its mnemonic, and fits its format. -/
namespace Sys2Proof.Laws.TableRow

/-- The encoding of `i` is a word of its format, covered by the table row of its mnemonic. -/
def Statement (i : Instr) : Prop :=
  (encode i).format.isWord (encode i).toNat = true ∧
    ∃ r ∈ opcodeRows, r.mnemonic = i.mnemonic ∧ r.covers (encode i).format (encode i).toNat = true

theorem capHoldLow (i : Channel) : Statement (.capHoldLow i) := by unfold Statement; cases i <;> decide
theorem capRise (i : Channel) : Statement (.capRise i) := by unfold Statement; cases i <;> decide
theorem capFall (i : Channel) : Statement (.capFall i) := by unfold Statement; cases i <;> decide
theorem capHoldHigh (i : Channel) : Statement (.capHoldHigh i) := by unfold Statement; cases i <;> decide
theorem capReset (i : Channel) (p l : Bool) : Statement (.capReset i p l) := by
  unfold Statement; cases i <;> cases p <;> cases l <;> decide
theorem sWait : Statement .sWait := by unfold Statement; decide
theorem sSnap : Statement .sSnap := by unfold Statement; decide
theorem sDerive : Statement .sDerive := by unfold Statement; decide
theorem sApply : Statement .sApply := by unfold Statement; decide
theorem sLog : Statement .sLog := by unfold Statement; decide
theorem fsmReserved5 : Statement .fsmReserved5 := by unfold Statement; decide
theorem fsmReserved67 (low : Bool) : Statement (.fsmReserved67 low) := by unfold Statement; cases low <;> decide
theorem fsmReset (code : FsmCode) : Statement (.fsmReset code) := by unfold Statement; revert code; decide
theorem sector0 : Statement .sector0 := by unfold Statement; decide
theorem sector1 : Statement .sector1 := by unfold Statement; decide
theorem sector2 : Statement .sector2 := by unfold Statement; decide
theorem sector3 : Statement .sector3 := by unfold Statement; decide
theorem sector4 : Statement .sector4 := by unfold Statement; decide
theorem sector5 : Statement .sector5 := by unfold Statement; decide

end Sys2Proof.Laws.TableRow
end

