-- ==== Sys2Proof/Tests/Slice0.lean ====
section
/-! SUPPORT. The model's own tests. Expected values come from spec/95_test_vectors.md (its vectors C1 to C17 and its
sections 2.2 to 2.8), from the encodings of spec/30_encoding.md, and from R9; each comment names the source. The
second part shows, for every statement with hypotheses, a state and operands that meet them. -/
namespace Sys2Proof.Tests
open Sys2Proof.Machine

/-! ### Helpers -/

/-- The next state, if there is one. -/
def next? : Host.Outcome State Fault Refusal → Option State
  | .next s => some s
  | .fault _ => none
  | .refused _ => none

/-- The default build with its lines not inverted. -/
def cfg0 : Config := Config.standard false ['\n'] 1000000

/-- The state after reset, in that build. -/
def base : State := { State.reset with cfg := cfg0 }

/-- `base` in FSM state `code`, at time `now`, with channel 1 at the given registers and level. -/
def clockState (code : FsmCode) (now : Nat) (pl lvl rv : Bool) (ts : Nat) (w : Nat) : State :=
  { base with
    state := code
    inp := ⟨false, 0, now⟩
    cap := { base.cap with ch1 := ⟨⟨lvl, [lvl]⟩, pl, ts, rv, w, false⟩ } }

/-- Channel 1's published width and flag after a clock. -/
def publishedBy (s : State) : Option (Nat × Bool) :=
  (next? (step s)).map fun t => ((t.unit .ch1).width, (t.unit .ch1).changed)

/-! ### Decoding: words written out from spec/30_encoding.md sections 2 to 4 -/

theorem test_decode_capsel : decode (.cap .ch2 0b000#3) = .ok (.capHoldLow .ch2) ∧
    decode (.cap .ch2 0b001#3) = .ok (.capRise .ch2) ∧ decode (.cap .ch2 0b010#3) = .ok (.capFall .ch2) ∧
    decode (.cap .ch2 0b011#3) = .ok (.capHoldHigh .ch2) ∧
    decode (.cap .ch2 0b101#3) = .ok (.capReset .ch2 false true) := by decide

theorem test_decode_fsmsel : decode (.fsm 0b0000#4) = .ok .sWait ∧ decode (.fsm 0b0001#4) = .ok .sSnap ∧
    decode (.fsm 0b0010#4) = .ok .sDerive ∧ decode (.fsm 0b0011#4) = .ok .sApply ∧
    decode (.fsm 0b0100#4) = .ok .sLog ∧ decode (.fsm 0b0101#4) = .ok .fsmReserved5 ∧
    decode (.fsm 0b0111#4) = .ok (.fsmReserved67 true) ∧ decode (.fsm 0b1010#4) = .ok (.fsmReset 0b010#3) := by
  decide

theorem test_decode_secsel : decode (.sec 0b000#3) = .ok .sector0 ∧ decode (.sec 0b001#3) = .ok .sector1 ∧
    decode (.sec 0b010#3) = .ok .sector2 ∧ decode (.sec 0b011#3) = .ok .sector3 ∧
    decode (.sec 0b100#3) = .ok .sector4 ∧ decode (.sec 0b101#3) = .ok .sector5 ∧
    decode (.sec 0b110#3) = .error (.unreachableSector 0b110#3) := by decide

/-- Selector bytes (log entry 13), with one rejected byte of each kind. -/
theorem test_decode_bytes : decodeByte 0x03#8 = .ok .sApply ∧ decodeByte 0x12#8 = .ok (.capFall .ch1) ∧
    decodeByte 0x31#8 = .ok (.capRise .ch3) ∧ decodeByte 0x45#8 = .ok .sector5 ∧
    decodeByte 0x1C#8 = .error (.wordTooWide 0x1C#8) ∧ decodeByte 0x50#8 = .error (.unknownUnit 0x50#8) ∧
    decodeByte 0x47#8 = .error (.unreachableSector 0b111#3) := by decide

theorem test_table_words : decodeTableWord 8 0 = some .sWait ∧ decodeTableWord 8 8 = some (.fsmReset 0) ∧
    decodeTableWord 3 2 = some (.capFall .ch1) ∧ decodeTableWord 8 0x44 = some .sector4 := by decide

/-- The rows of the opcode map, nineteen as spec/opcode_table.json has them, do not overlap within a format. -/
theorem test_rows_disjoint : opcodeRows.length = 19 ∧
    ∀ w : Fin 16, ∀ f ∈ [Format.capsel, .fsmsel, .secsel], f.isWord w.val = true →
      (opcodeRows.filter fun r => r.covers f w.val).length ≤ 1 := by decide

/-- Each kind of word runs as the very next step (log entry 14). -/
theorem test_withFetchWord_fsm :
    (next? (step (base.withFetchWord 8 0x03))).map (·.state) = some fsmLog := by decide
theorem test_withFetchWord_cap :
    ((next? (step (base.withFetchWord 8 0x22))).map fun t => (t.unit .ch2).changed) = some true := by decide
theorem test_withFetchWord_sec :
    ((next? (step (base.withFetchWord 8 0x44))).map fun t => (t.cmdR, t.cmdG, t.cmdB)) = some (0, 0, 255) := by
  decide

/-! ### R9: each clause of a legal build refuses a build that breaks it -/

theorem test_legal_default : cfg0.legal = true := by decide
theorem test_illegal_minMax : ({ cfg0 with wMin := 2000, wMax := 2000 } : Config).legal = false := by decide
theorem test_illegal_maxFits : ({ cfg0 with wMax := 2048 } : Config).legal = false := by decide
theorem test_illegal_minNeutral : ({ cfg0 with wNeutral := 999 } : Config).legal = false := by decide
theorem test_illegal_neutralMax : ({ cfg0 with wNeutral := 2001 } : Config).legal = false := by decide
theorem test_illegal_minOn : ({ cfg0 with onThreshold := 999 } : Config).legal = false := by decide
theorem test_illegal_onMax : ({ cfg0 with onThreshold := 2001 } : Config).legal = false := by decide
theorem test_illegal_deadzone : ({ cfg0 with deadzone := 255 } : Config).legal = false := by decide
theorem test_illegal_cadencePos : ({ cfg0 with cadenceUs := 0 } : Config).legal = false := by decide
theorem test_illegal_cadenceFits : ({ cfg0 with cadenceUs := 4294967296 } : Config).legal = false := by decide
theorem test_illegal_span : ({ cfg0 with hueSpan := 359 } : Config).legal = false := by decide
theorem test_illegal_stages : ({ cfg0 with syncStages := 0 } : Config).legal = false := by decide
theorem test_illegal_intFits : ({ cfg0 with intMax := 256 } : Config).legal = false := by decide
theorem test_illegal_hueFits : ({ cfg0 with hueSpan := 516, sectorDeg := 86 } : Config).legal = false := by decide
theorem test_illegal_degPos : ({ cfg0 with hueSpan := 0, sectorDeg := 0 } : Config).legal = false := by decide
theorem test_illegal_lut : ({ cfg0 with hueLut := [] } : Config).legal = false := by decide
theorem test_illegal_lutFits : ({ cfg0 with hueLut := 256 :: cfg0.hueLut.tail } : Config).legal = false := by decide
theorem test_illegal_widthInTs : ({ cfg0 with tsW := 15, widthW := 16 } : Config).legal = false := by decide
theorem test_illegal_word : Format.capsel.isWord 8 = false ∧ Format.fsmsel.isWord 16 = false ∧
    Format.secsel.isWord 8 = false := by decide

/-- An illegal build is refused by the step (R9). -/
theorem test_illegal_refused :
    next? (step { base with cfg := { cfg0 with wNeutral := 999 } }) = none := by decide

/-! ### Capture (spec/95_test_vectors.md 2.1) -/

/-- C1. -/
theorem test_C1_hold_low : publishedBy (clockState fsmWait 150000 false false true 100000 1720) = some (1720, false) := by
  decide
/-- C2. -/
theorem test_C2_hold_high : publishedBy (clockState fsmWait 150000 true true true 100000 1720) = some (1720, false) := by
  decide
/-- C3. -/
theorem test_C3_rise : ((next? (step (clockState fsmWait 100000 false true false 0 1500))).map fun t =>
    ((t.unit .ch1).riseTs, (t.unit .ch1).riseValid, (t.unit .ch1).width)) = some (100000, true, 1500) := by decide
/-- C5, C6: the lower bound is inclusive. -/
theorem test_C5_C6_lower_bound :
    publishedBy (clockState fsmWait 100999 true false true 100000 1600) = some (1500, true) ∧
    publishedBy (clockState fsmWait 101000 true false true 100000 1600) = some (1000, true) := by decide
/-- C7, C8: the upper bound is inclusive. -/
theorem test_C7_C8_upper_bound :
    publishedBy (clockState fsmWait 102000 true false true 100000 1600) = some (2000, true) ∧
    publishedBy (clockState fsmWait 102001 true false true 100000 1600) = some (1500, true) := by decide
/-- C10: the full 32-bit value is checked; C11: a fall without a rise. -/
theorem test_C10_C11 :
    publishedBy (clockState fsmWait 103048 true false true 100000 1600) = some (1500, true) ∧
    publishedBy (clockState fsmWait 1200 true false false 0 1500) = some (1500, true) := by decide
/-- C12, C13, C14: the wrap of `time_us`. -/
theorem test_C12_C13_C14_wrap :
    publishedBy (clockState fsmWait 0x1F4 true false true 0xFFFFFC18 1600) = some (1500, true) ∧
    publishedBy (clockState fsmWait 0x300 true false true 0xFFFFFF00 1500) = some (1024, true) ∧
    publishedBy (clockState fsmWait 4 true false true 5 1800) = some (1500, true) := by decide

/-- A build with 16-bit timestamps (R6 `TS_W`, R61): from 65000 across the wrap to 464 are 1000 µs; the port's bits
above `TS_W` are not there. -/
theorem test_tsW_16 :
    let s := { clockState fsmWait (65536 + 464) true false true 65000 1500 with cfg := { cfg0 with tsW := 16 } }
    s.cfg.legal = true ∧ publishedBy s = some (1000, true) := by decide

/-! ### Arbiter and snapshot (2.2) -/

/-- The collision vector of 2.2: channel 2 falls with 2000 in the S_SNAP clock. -/
def collision : State :=
  { base with
    inp := ⟨false, 0, 102000⟩
    cap := ⟨{ CaptureUnit.reset with width := 1600, changed := true },
            { CaptureUnit.reset with prevLevel := true, riseTs := 100000, riseValid := true },
            CaptureUnit.reset⟩ }

theorem test_collision : ((next? (step collision)).map fun t => (t.snapW, t.snapChg)) =
    some (⟨1600, 1500, 1500⟩, ⟨true, false, false⟩) ∧
  ((next? (step collision)).map fun t => (t.cap.map CaptureUnit.width, t.cap.map CaptureUnit.changed)) =
    some (⟨1600, 2000, 1500⟩, ⟨false, true, false⟩) := by decide

/-! ### FSM (2.3) -/

theorem test_wait_boundary :
    ((next? (step { base with state := fsmWait, inp := ⟨false, 0, 19999⟩ })).map (·.state)) = some fsmWait ∧
    ((next? (step { base with state := fsmWait, inp := ⟨false, 0, 20000⟩ })).map (·.state)) = some fsmSnap := by
  decide
theorem test_wait_wrap :
    ((next? (step { base with state := fsmWait, iterStart := 0xFFFFF000, inp := ⟨false, 0, 0x3E1F⟩ })).map (·.state)) =
      some fsmWait ∧
    ((next? (step { base with state := fsmWait, iterStart := 0xFFFFF000, inp := ⟨false, 0, 0x3E20⟩ })).map (·.state)) =
      some fsmSnap := by decide
theorem test_reserved : ((next? (step { base with state := 0b101 })).map (·.state)) = some fsmWait ∧
    ((next? (step { base with state := 0b110 })).map (·.state)) = some fsmWait ∧
    ((next? (step { base with state := 0b111 })).map (·.state)) = some fsmWait := by decide

/-! ### Derivation, color, ports (2.4 to 2.7) -/

theorem test_onoff : fOnoff cfg0 1400 = false ∧ fOnoff cfg0 1500 = false ∧ fOnoff cfg0 1501 = true ∧
    fOnoff cfg0 2047 = true := by decide
theorem test_map : fMap cfg0 0 255 = 0 ∧ fMap cfg0 999 255 = 0 ∧ fMap cfg0 1004 255 = 1 ∧ fMap cfg0 1082 255 = 20 ∧
    fMap cfg0 1997 255 = 254 ∧ fMap cfg0 2047 255 = 255 := by decide
theorem test_bright : fBright cfg0 1082 = 0 ∧ fBright cfg0 1083 = 21 ∧ fBright cfg0 1600 = 153 ∧
    fBright cfg0 2047 = 255 := by decide
theorem test_hue : fHue cfg0 1002 = 0 ∧ fHue cfg0 1003 = 1 ∧ fHue cfg0 1400 = 144 ∧ fHue cfg0 1999 = 359 ∧
    fHue cfg0 2047 = 360 := by decide
theorem test_hsv_even : hsv cfg0 4 = ⟨255, 17, 0⟩ ∧ hsv cfg0 144 = ⟨0, 255, 102⟩ ∧ hsv cfg0 299 = ⟨250, 0, 255⟩ ∧
    hsv cfg0 360 = ⟨255, 0, 0⟩ := by decide
theorem test_hsv_odd : hsv cfg0 61 = ⟨250, 255, 0⟩ ∧ hsv cfg0 216 = ⟨0, 102, 255⟩ ∧ hsv cfg0 358 = ⟨255, 0, 8⟩ := by
  decide
/-- The example of R71. -/
theorem test_derive : ((next? (exec .sDerive { base with snapW := ⟨1600, 2000, 1500⟩ })).map fun t =>
    (t.cmdOn, t.cmdBright, t.cmdHue, t.cmdR, t.cmdG, t.cmdB)) = some (true, 255, 180, 0, 255, 255) := by decide
/-- The example of R91. -/
theorem test_sector1 : ((next? (exec .sector1 { base with snapW := ⟨1500, 1500, 1250⟩ })).map fun t =>
    (t.cmdR, t.cmdG, t.cmdB)) = some (127, 255, 0) := by decide
/-- 2.6. -/
theorem test_inversion :
    let s := { base with cfg := Config.standard true [] 0, outR := 127, outG := 255, outB := 0, outBright := 127 }
    (s.ledR, s.ledG, s.ledB, s.ledBright) = (128, 0, 255, 127) := by decide
/-- 2.7, second row. -/
def logState : State :=
  { base with state := fsmLog, snapChg := ⟨false, true, false⟩, snapW := ⟨1500, 1800, 1500⟩, cmdHue := 180,
              cmdBright := 204 }
theorem test_log : logState.dbgValid = true ∧
    ((next? (step logState)).map fun t => (t.emitted, t.state)) =
      some ([⟨1500, 1800, 1500, 180, 204⟩], fsmWait) := by decide
theorem test_log_silent : ({ logState with snapChg := ⟨false, false, false⟩ } : State).dbgValid = false ∧
    ((next? (step { logState with snapChg := ⟨false, false, false⟩ })).map (·.emitted)) = some [] := by decide
theorem test_dec : dec 0 = ['0'] ∧ dec 1082 = ['1', '0', '8', '2'] := by decide
theorem test_apply : ((next? (exec .sApply { base with cmdOn := true, cmdBright := 255, cmdG := 255, cmdB := 255 })).map
    fun t => (t.outOn, t.outBright, t.outR, t.outG, t.outB)) = some (true, 255, 0, 255, 255) := by decide

/-! ### Reset (2.8) -/

/-- A busy state, in a reset clock with levels (1, 0, 0). -/
def busy : State :=
  { logState with
    inp := ⟨true, 0b001, 77⟩
    cap := ⟨⟨⟨true, [true]⟩, false, 5, true, 1700, true⟩, ⟨⟨false, [false]⟩, true, 6, true, 1800, true⟩,
            CaptureUnit.reset⟩
    iterStart := 9, outOn := true, outR := 3 }

theorem test_reset_clock : ((next? (step busy)).map fun t =>
    (t.cap.map CaptureUnit.prevLevel, t.cap.map CaptureUnit.width, t.state)) =
      some (⟨true, false, false⟩, ⟨1500, 1500, 1500⟩, fsmSnap) ∧
    ((next? (step busy)).map fun t => (t.iterStart, t.snapW, t.outOn, t.outR)) =
      some (0, ⟨1500, 1500, 1500⟩, false, 0) := by decide

/-! ### Stimulus (program P1 of section 3) -/

def p1 : StimulusProgram :=
  ⟨false, 0, [.rst 0 true, .rst 3 false, .pulse .ch1 1000 1600, .pulse .ch2 1000 2000, .pulse .ch3 1000 1500], 20010⟩

theorem test_P1_nibbles : p1.nibble 2 = 8 ∧ p1.nibble 999 = 0 ∧ p1.nibble 1000 = 7 ∧ p1.nibble 2499 = 7 ∧
    p1.nibble 2500 = 3 ∧ p1.nibble 2600 = 2 ∧ p1.nibble 3000 = 0 := by decide

/-- A short program across the wrap of the timebase: reset for clocks 0 to 2, and a 2 µs pulse from clock 4. -/
def shortProgram : StimulusProgram :=
  ⟨true, 4294967295, [.rst 0 true, .rst 3 false, .pulse .ch1 4 2], 7⟩

/-- `run 7` evaluates through the end of clock 7 (R53): the pulse rose at `time_us` 3 and fell in clock 6, out of
range, so it published 1500 (R58, R59). -/
theorem test_evaluate : ((next? shortProgram.evaluate).map fun t =>
    ((t.unit .ch1).riseTs, (t.unit .ch1).width, (t.unit .ch1).changed)) = some (3, 1500, true) := by decide

/-- Clock 6 is the S_LOG clock of the first iteration (R108): neutral outputs, inverted colors, no record (R95). -/
theorem test_outputsAt : (shortProgram.outputsAt 6).map (fun o =>
    (o.ledOn, o.ledBright, o.ledR, o.ledG, o.ledB, o.dbgValid)) = some (false, 127, 255, 0, 0, false) := by decide

/-! ### Witnesses: states and operands that meet the hypotheses of the statements -/

theorem cfg0_standard : StandardBuild cfg0 := rfl

/-- A legal build's clock, as a next state. -/
theorem steps {s : State} (h : s.cfg.legal = true) : step s = .next (clockNext s) := step_legal h

/-- One legal clock, as a run. -/
theorem runs1 {s : State} (h : s.cfg.legal = true) : RunsTo 1 s (clockNext s) :=
  run_succ.mpr ⟨_, step_legal h, rfl⟩

/-- Two legal clocks, as a run. -/
theorem runs2 {s : State} (h : s.cfg.legal = true) : RunsTo 2 s (clockNext (clockNext s)) :=
  run_succ.mpr ⟨_, step_legal h, runs1 (by simpa using h)⟩

/-- A predicate of the first two clocks holds along a run of two clocks. -/
theorem satisfies2 {s : State} {P : State → Prop} (h : s.cfg.legal = true) (h0 : P s) (h1 : P (clockNext s)) :
    RunSatisfies 2 s P := by
  intro k hk u hu
  match k, hk with
  | 0, _ =>
    have h' : s = u := by injection hu
    exact h' ▸ h0
  | 1, _ =>
    have h' : (Host.Outcome.next (clockNext s) : Host.Outcome State Fault Refusal) = .next u := (runs1 h).symm.trans hu
    injection h' with h'
    exact h' ▸ h1

/-- A run's last state, by clocks. -/
theorem run_iterate {n : Nat} {s u : State} (h : RunsTo n s u) : u = clockNext^[n] s := by
  induction n generalizing s with
  | zero => injection h with h; exact h.symm
  | succ n ih =>
    obtain ⟨v, hv, hu⟩ := run_succ.mp h
    obtain ⟨-, rfl⟩ := step_next hv
    exact ih hu

/-- Inputs with steady low lines. -/
def quiet (t : Nat) : Inputs := ⟨false, 0, t⟩

/-- A rise on channel 1 in an S_SNAP clock. -/
def rising : State := clockState fsmSnap 100000 false true false 0 1500
/-- A fall on channel 1 in an S_SNAP clock, measuring `now - 100000`. -/
def falling (now : Nat) : State := clockState fsmSnap now true false true 100000 1500
/-- A pulse on channel 1: a rise, one hold, and a fall 1600 µs after the rise. -/
def pulse : State :=
  { base with
    inp := quiet 0
    stimulus := [quiet 800, quiet 1600, quiet 1601]
    cap := { base.cap with ch1 := ⟨⟨true, [true]⟩, false, 0, false, 1500, false⟩ } }
/-- A quiet block in S_SNAP with quiet clocks to come. -/
def quietRun : State := { base with stimulus := [quiet 1, quiet 2, quiet 3, quiet 4] }
/-- A reset clock followed by quiet clocks. -/
def resetRun : State := { base with inp := ⟨true, 0, 5⟩, stimulus := [quiet 6, quiet 7, quiet 8, quiet 9] }
/-- Three reset clocks with steady lines (1, 0, 1) on unsettled synchronisers. -/
def resetHold : State :=
  { busy with inp := ⟨true, 0b101, 1⟩, stimulus := [⟨true, 0b101, 2⟩, ⟨true, 0b101, 3⟩, quiet 4] }
/-- S_WAIT on a stalled timebase. -/
def stalled : State :=
  { base with state := fsmWait, inp := quiet 19999, stimulus := [quiet 19999, quiet 19999] }

theorem witness_DecodeEncodeRoundTrip : decode (.fsm 0b1111#4) = .ok (.fsmReset 0b111#3) := by decide
theorem witness_DecoderFollowsOpcodeMap : decode (.cap .ch3 0b111#3) = .ok (.capReset .ch3 true true) ∧
    decode (.sec 0b110#3) = .error (.unreachableSector 0b110#3) := by decide

/-- Both ends of every band, and a legal build. -/
theorem witness_SectorBands : StandardBuild cfg0 ∧ cfg0.legal = true ∧
    ∀ k : Fin 6, 60 * k.val ≤ 60 * k.val % 360 ∧ (60 * k.val + 59) % 360 < 60 * k.val + 60 := ⟨rfl, by decide, by decide⟩

theorem witness_CapHoldChangesNothing :
    (clockState fsmWait 0 false false true 0 1500).capsel .ch1 = 0b000#3 ∧
    (clockState fsmWait 0 true true true 0 1500).capsel .ch1 = 0b011#3 ∧
    base.inp.rst = false ∧ Holding base .ch1 := ⟨by decide, by decide, rfl, rfl⟩

theorem witness_CapRiseRecordsStart : rising.capsel .ch1 = 0b001#3 ∧ rising.state = fsmSnap ∧
    step rising = .next (clockNext rising) := ⟨by decide, rfl, steps (by decide)⟩

/-- The clauses of the width: both bounds from inside and from outside, and no rise. -/
theorem witness_CapFallPublishes : (falling 101000).capsel .ch1 = 0b010#3 ∧ (falling 101000).state = fsmSnap ∧
    step (falling 101000) = .next (clockNext (falling 101000)) ∧
    inrange cfg0 ((falling 101000).elapsed .ch1) = true ∧ inrange cfg0 ((falling 102000).elapsed .ch1) = true ∧
    inrange cfg0 ((falling 100999).elapsed .ch1) = false ∧ inrange cfg0 ((falling 102001).elapsed .ch1) = false ∧
    (base.unit .ch1).riseValid = false :=
  ⟨by decide, rfl, steps (by decide), by decide, by decide, by decide, by decide, rfl⟩

theorem witness_WaitForCadence :
    (let s := { base with inp := quiet 20000 }; s.cfg.cadenceUs ≤ subMod s.cfg.tsW s.now s.iterStart) ∧
    (let s := { base with inp := quiet 19999 }; subMod s.cfg.tsW s.now s.iterStart < s.cfg.cadenceUs) := by decide

theorem witness_ApplyCommands : base.inp.rst = false ∧ base.state ≠ fsmApply ∧ step base = .next (clockNext base) :=
  ⟨rfl, by decide, steps (by decide)⟩

theorem witness_LogEmitsWhenChanged : logState.snapChg.ch2 = true ∧
    (base.snapChg.ch1 = false ∧ base.snapChg.ch2 = false ∧ base.snapChg.ch3 = false) := by decide

theorem witness_SectorOperations : StandardBuild base.cfg ∧
    0 = fHue base.cfg base.snapW.ch3 % 360 % 60 := ⟨rfl, by decide⟩

/-- The default build, a premise of RangeValidator, OnOffThreshold, LinearMapIsExactFloor, BrightnessDeadZone,
HueDegrees and ColorProperties. -/
theorem witness_StandardBuild : StandardBuild cfg0 ∧ cfg0.legal = true := ⟨rfl, by decide⟩

theorem witness_TimestampDelta :
    let s := clockState fsmWait 0x1F4 true false true 0xFFFFFC18 1500
    s.cfg.tsW = 32 ∧ (s.unit .ch1).riseTs = 0xFFFFFC18 ∧ s.inp.timeUs = 0x000001F4 := by decide

/-- Both sides of `W_MIN`. -/
theorem witness_LinearMapIsExactFloor : cfg0.wMin < cfg0.wMax ∧ cfg0.wMin ≤ 1000 ∧ 999 < cfg0.wMin := by decide

/-- Both sides of the dead-zone. -/
theorem witness_BrightnessDeadZone : StandardBuild cfg0 ∧ fBright cfg0 1082 = 0 ∧ fBright cfg0 1083 ≠ 0 :=
  ⟨rfl, by decide, by decide⟩

/-- Hue 90, the example of R91: `h' = 90`, `x = 3/2`, `X = 1/2`, `xi = 127`. -/
theorem witness_HsvIsExact : StandardBuild cfg0 ∧ 90 ≤ 360 ∧ 90 = 90 % 360 ∧
    (3 / 2 : ℚ) = ((90 : ℕ) : ℚ) / 60 ∧ (1 / 2 : ℚ) = 1 - |((3 / 2 : ℚ) - 2 * ⌊(3 / 2 : ℚ) / 2⌋) - 1| ∧
    ((127 : Nat) : ℤ) = ⌊(1 / 2 : ℚ) * 255⌋ := by
  have h1 : ⌊(3 / 2 : ℚ) / 2⌋ = 0 := by rw [Int.floor_eq_iff]; norm_num
  have h2 : ⌊(1 / 2 : ℚ) * 255⌋ = 127 := by rw [Int.floor_eq_iff]; norm_num
  refine ⟨rfl, by decide, by decide, by norm_num, ?_, ?_⟩
  · rw [h1]; norm_num
  · rw [h2]; rfl

/-- Both ends of a band, and both parities. -/
theorem witness_ColorProperties : (0 : Nat) ≤ 60 ∧ (60 : Nat) ≤ 60 ∧ 4 < 6 ∧ 4 % 2 = 0 ∧ 5 < 6 ∧ 5 % 2 = 1 := by decide

theorem base_registersFit : RegistersFit base :=
  ⟨fun i => by cases i <;> decide, fun i => by cases i <;> decide, by decide, fun i => by cases i <;> decide, by decide,
    by decide, ⟨by decide, by decide, by decide⟩, by decide, ⟨by decide, by decide, by decide⟩⟩

/-- Either wiring. -/
theorem witness_ActuatorPins : base.cfg.invertColor = false ∧
    (let s := { base with cfg := Config.standard true [] 0 }
     StandardBuild s.cfg ∧ s.cfg.invertColor = true ∧ RegistersFit s) :=
  ⟨rfl, rfl, rfl, { base_registersFit with }⟩

theorem witness_RenderedDebugLine :
    let r : DbgRecord := ⟨1000, 9999, 2000, 999, 100⟩
    1000 ≤ r.ch8 ∧ r.ch8 ≤ 9999 ∧ 1000 ≤ r.ch6 ∧ r.ch6 ≤ 9999 ∧ 1000 ≤ r.ch7 ∧ r.ch7 ≤ 9999 ∧ r.hue ≤ 999 ∧
      r.bright ≤ 999 ∧ 100 ≤ r.hue ∧ 100 ≤ r.bright := by decide

/-- A clock outside S_DERIVE and one in it, with what its selectors decode to. -/
theorem witness_StepRunsSelectedOperations :
    base.cfg.legal = true ∧ decode (.fsm (BitVec.ofBool base.inp.rst ++ base.state)) = .ok .sSnap ∧
    (∀ i, decode (.cap i (bits3 base.inp.rst (base.unit i).prevLevel (base.lvl i))) = .ok (.capHoldLow i)) ∧
    ¬ (base.inp.rst = false ∧ base.state = fsmDerive) ∧
    (let s := { base with state := fsmDerive }
     s.cfg.legal = true ∧ decode (.fsm (BitVec.ofBool s.inp.rst ++ s.state)) = .ok .sDerive ∧
     s.inp.rst = false ∧ s.state = fsmDerive ∧
     decode (.sec (sectorOf s.cfg (fHue s.cfg s.snapW.ch3))) = .ok .sector3) := by
  refine ⟨by decide, by decide, ?_, by decide, by decide⟩
  intro i
  cases i <;> decide

/-- The three premises' shapes: a capture unit, the FSM, and the transform. -/
theorem witness_EachUnitActsAsAlone :
    step rising = .next (clockNext rising) ∧ decode (.cap .ch1 (rising.capsel .ch1)) = .ok (.capRise .ch1) ∧
    decode (.fsm rising.fsmsel) = .ok .sSnap ∧ (∃ a, exec (.capRise .ch1) rising = .next a) ∧
    (∃ a, exec .sSnap rising = .next a) ∧
    (let s := { base with state := fsmDerive }
     step s = .next (clockNext s) ∧ s.inp.rst = false ∧ decode (.sec s.secsel) = .ok .sector3 ∧
       ∃ a, exec .sector3 s = .next a) :=
  ⟨steps (by decide), by decide, by decide, ⟨_, rfl⟩, ⟨_, rfl⟩, steps (by decide), rfl, by decide, ⟨_, rfl⟩⟩

/-- One clock for each line of the arbiter. -/
theorem witness_ChangedArbiter :
    (step busy = .next (clockNext busy) ∧ busy.inp.rst = true) ∧
    (step collision = .next (clockNext collision) ∧ collision.inp.rst = false ∧ collision.capPub .ch2 = true) ∧
    (collision.capPub .ch1 = false ∧ collision.state = fsmSnap) ∧
    (step stalled = .next (clockNext stalled) ∧ stalled.inp.rst = false ∧ stalled.capPub .ch1 = false ∧
      stalled.state ≠ fsmSnap) :=
  ⟨⟨steps (by decide), rfl⟩, ⟨steps (by decide), rfl, by decide⟩, ⟨by decide, rfl⟩,
    ⟨steps (by decide), rfl, by decide, by decide⟩⟩

theorem witness_SnapshotCollision : collision.cfg.legal = true ∧ collision.inp.rst = false ∧
    collision.state = fsmSnap ∧ (collision.unit .ch2).prevLevel = true ∧ collision.lvl .ch2 = false := by decide

/-- Every code, both sides of the cadence boundary, and reset. -/
theorem witness_FsmTransitions : base.cfg.legal = true ∧ busy.inp.rst = true ∧ base.inp.rst = false ∧
    (∀ code : FsmCode, ({ base with state := code } : State).state = code) ∧
    base.cfg.cadenceUs ≤ subMod base.cfg.tsW 20000 base.iterStart ∧
    subMod base.cfg.tsW 19999 base.iterStart < base.cfg.cadenceUs :=
  ⟨by decide, rfl, rfl, fun _ => rfl, by decide, by decide⟩

theorem witness_ResetClock : busy.cfg.legal = true ∧ busy.inp.rst = true := by decide

/-- Two states that differ in their FSM, captures and times, with the same synchronisers and lines. -/
theorem witness_ResetDominates :
    let s := busy
    let s' := { busy with state := fsmWait, iterStart := 1, inp := ⟨true, 0b001, 123⟩, outOn := false }
    s.inp.rst = true ∧ s'.inp.rst = true ∧ s.cfg = s'.cfg ∧ s.inp.pwmIn = s'.inp.pwmIn ∧
      (∀ i, (s.unit i).sync = (s'.unit i).sync) ∧ step s = .next (clockNext s) ∧ step s' = .next (clockNext s') :=
  ⟨rfl, rfl, rfl, rfl, fun _ => rfl, steps (by decide), steps (by decide)⟩

/-- Two states that differ in channel 2's registers and line only. -/
theorem witness_ChannelIndependence :
    let s' := { base.setUnit .ch2 { CaptureUnit.reset with prevLevel := true, width := 1999 } with inp := ⟨false, 0b010, 0⟩ }
    base.unit .ch1 = s'.unit .ch1 ∧ base.cfg = s'.cfg ∧ base.inp.rst = s'.inp.rst ∧ base.inp.timeUs = s'.inp.timeUs ∧
      lineOf base.inp .ch1 = lineOf s'.inp .ch1 ∧ lineOf base.inp .ch2 ≠ lineOf s'.inp .ch2 ∧ base.state = s'.state ∧
      step base = .next (clockNext base) ∧ step s' = .next (clockNext s') :=
  ⟨rfl, rfl, rfl, rfl, by decide, by decide, rfl, steps (by decide), steps (by decide)⟩

/-- A clock outside each writer's. -/
theorem witness_OnlyTheNamedWriters : step stalled = .next (clockNext stalled) ∧ stalled.inp.rst = false ∧
    stalled.state ≠ fsmDerive ∧ stalled.state ≠ fsmApply ∧ stalled.state ≠ fsmSnap ∧ stalled.state ≠ fsmLog ∧
    stalled.capsel .ch1 ≠ 0b001#3 ∧ stalled.capsel .ch1 ≠ 0b010#3 :=
  ⟨steps (by decide), rfl, by decide, by decide, by decide, by decide, by decide, by decide⟩

/-- With and without a record. -/
theorem witness_EmissionFollowsDebugPort : step logState = .next (clockNext logState) ∧ logState.dbgValid = true ∧
    step base = .next (clockNext base) ∧ base.dbgValid = false :=
  ⟨steps (by decide), by decide, steps (by decide), by decide⟩

theorem witness_LegalBuildNeverStops : base.cfg.legal = true := by decide

theorem witness_IllegalConfigurationRefused :
    ¬ (({ cfg0 with deadzone := 255 } : Config).deadzone < ({ cfg0 with deadzone := 255 } : Config).intMax) ∧
    StandardBuild base.cfg := ⟨by decide, rfl⟩

theorem witness_StepKeepsInv : Inv base ∧ step base = .next (clockNext base) := by
  refine ⟨⟨by decide, .inr (.inl rfl), base_registersFit, ?_, ?_, ?_⟩, steps (by decide)⟩
  · intro i
    cases i <;> exact ⟨⟨by decide, by decide⟩, by decide, by decide⟩
  · intro i
    cases i <;> rfl
  · intro i
    cases i <;> intro _ <;> rfl

/-- In S_LOG, where both clauses bind. -/
theorem witness_StepKeepsPhase :
    let s := { base with state := fsmLog, cmdBright := 127, cmdHue := 180, cmdG := 255, cmdB := 255,
                         outBright := 127, outG := 255, outB := 255 }
    InPhase s ∧ step s = .next (clockNext s) :=
  ⟨⟨.inr (.inr (.inr (.inr rfl))), fun _ => ⟨by decide, by decide, by decide, by decide⟩,
    fun _ => ⟨rfl, rfl, rfl⟩⟩, steps (by decide)⟩

theorem witness_StepKeepsActuationAllowed : ActuationAllowed base ∧ step base = .next (clockNext base) :=
  ⟨⟨by decide, by decide, .inl rfl, .inl rfl, .inl rfl, .inl rfl⟩, steps (by decide)⟩

theorem witness_WidthsInRangeAfterReset :
    busy.inp.rst = true ∧ RunsTo (1 + 1) busy (clockNext (clockNext busy)) := ⟨rfl, runs2 (by decide)⟩

theorem witness_SynchroniserDelay : step base = .next (clockNext base) ∧
    RunsTo (quietRun.unit .ch1).sync.stages quietRun (clockNext (clockNext quietRun)) :=
  ⟨steps (by decide), runs2 (by decide)⟩

theorem witness_PulseIsMeasured :
    pulse.capsel .ch1 = 0b001#3 ∧ RunsTo (1 + 1) pulse (clockNext (clockNext pulse)) ∧
    (∀ k, 0 < k → k < 1 + 1 → ∀ m, RunsTo k pulse m → m.inp.rst = false ∧ Holding m .ch1) ∧
    (clockNext (clockNext pulse)).capsel .ch1 = 0b010#3 ∧
    step (clockNext (clockNext pulse)) = .next (clockNext (clockNext (clockNext pulse))) := by
  refine ⟨by decide, runs2 (by decide), ?_, by decide, steps (by decide)⟩
  intro k h0 h1 m hm
  obtain rfl : k = 1 := by omega
  have h' : (Host.Outcome.next (clockNext pulse) : Host.Outcome State Fault Refusal) = .next m :=
    (runs1 (by decide)).symm.trans hm
  injection h' with h'
  subst h'
  exact ⟨by decide, by unfold Holding; decide⟩

theorem witness_SilentLineKeepsWidth : quietRun.state = fsmSnap ∧
    RunsTo (1 + 1) quietRun (clockNext (clockNext quietRun)) ∧
    RunSatisfies (1 + 1) quietRun (fun u => u.inp.rst = false ∧ u.capPub .ch1 = false) :=
  ⟨rfl, runs2 (by decide), satisfies2 (by decide) (by decide) (by decide)⟩

/-- A fall and a rise, each followed by quiet clocks, and a first edge of either kind after a reset clock. -/
theorem witness_EdgesAlternate :
    (let s := { falling 101600 with stimulus := [quiet 101601, quiet 101602] }
     s.capsel .ch1 = 0b010#3 ∧ RunsTo (1 + 1) s (clockNext (clockNext s)) ∧
     RunSatisfies (1 + 1) s (fun u => u.inp.rst = false ∧ u.capsel .ch1 ≠ 0b001#3)) ∧
    (let s := { rising with stimulus := [⟨false, 0b001, 100001⟩, ⟨false, 0b001, 100002⟩], inp := ⟨false, 0b001, 100000⟩ }
     s.capsel .ch1 = 0b001#3 ∧ RunsTo (1 + 1) s (clockNext (clockNext s)) ∧
     RunSatisfies (1 + 1) s (fun u => u.inp.rst = false ∧ u.capsel .ch1 ≠ 0b010#3)) ∧
    (let s := { busy with inp := ⟨true, 0, 1⟩, stimulus := [quiet 2, quiet 3] }
     s.inp.rst = true ∧ step s = .next (clockNext s) ∧ RunsTo 1 (clockNext s) (clockNext (clockNext s)) ∧
     RunSatisfies 1 (clockNext s) (fun m => m.inp.rst = false ∧ Holding m .ch1) ∧
     (clockNext (clockNext s)).inp.rst = false ∧ ¬ Holding (clockNext (clockNext s)) .ch1 ∧ s.lvl .ch1 = true) ∧
    (let s := { busy with inp := ⟨true, 0b010, 1⟩, stimulus := [quiet 2, quiet 3] }
     s.inp.rst = true ∧ step s = .next (clockNext s) ∧ RunsTo 1 (clockNext s) (clockNext (clockNext s)) ∧
     RunSatisfies 1 (clockNext s) (fun m => m.inp.rst = false ∧ Holding m .ch2) ∧
     (clockNext (clockNext s)).inp.rst = false ∧ ¬ Holding (clockNext (clockNext s)) .ch2 ∧ s.lvl .ch2 = false) := by
  refine ⟨⟨by decide, runs2 (by decide), satisfies2 (by decide) (by decide) (by decide)⟩,
    ⟨by decide, runs2 (by decide), satisfies2 (by decide) (by decide) (by decide)⟩,
    ⟨rfl, steps (by decide), runs1 (by decide), ?_, by decide, by unfold Holding; decide, by decide⟩,
    ⟨rfl, steps (by decide), runs1 (by decide), ?_, by decide, by unfold Holding; decide, by decide⟩⟩ <;>
  · intro k hk u hu
    obtain rfl := run_iterate hu
    obtain rfl : k = 0 := by omega
    exact ⟨by decide, by unfold Holding; decide⟩

theorem witness_IterationActuatesSnapshot : quietRun.cfg.legal = true ∧ quietRun.state = fsmSnap ∧
    ∀ k u, k ≤ 3 → RunsTo k quietRun u → u.inp.rst = false := by
  refine ⟨by decide, rfl, fun k u hk hu => ?_⟩
  obtain rfl := run_iterate hu
  interval_cases k <;> decide

/-- A quiet block in S_SNAP with a cadence of `c` µs and seven listed clocks under the 1 MHz harness. -/
def cadenceRun (c : Nat) : State :=
  { base with
    cfg := { cfg0 with cadenceUs := c }
    stimulus := [quiet 1, quiet 2, quiet 3, quiet 4, quiet 5, quiet 6, quiet 7] }

/-- The shortest cadence R83 covers under the harness: 4 µs, so `n = 4` in the first clause too. -/
theorem witness_IterationPeriod :
    (cadenceRun 4).state = fsmSnap ∧ 4 ≤ (cadenceRun 4).cfg.cadenceUs ∧ (∃ t, RunsTo (4 + 1) (cadenceRun 4) t) ∧
    ∀ k u, k ≤ (cadenceRun 4).cfg.cadenceUs → RunsTo k (cadenceRun 4) u →
      u.inp.rst = false ∧ u.now = truncate (cadenceRun 4).cfg.tsW ((cadenceRun 4).now + k) ∧
      (4 ≤ k → ((cadenceRun 4).cfg.cadenceUs ≤ subMod (cadenceRun 4).cfg.tsW u.now (cadenceRun 4).now ↔ k = 4)) := by
  refine ⟨rfl, by decide, ⟨_, run_succ.mpr ⟨_, step_legal (by decide), run_succ.mpr ⟨_, step_legal (by decide),
    run_succ.mpr ⟨_, step_legal (by decide), runs2 (by decide)⟩⟩⟩⟩, ?_⟩
  intro k u hk hu
  obtain rfl := run_iterate hu
  have hk' : k ≤ 4 := hk
  interval_cases k <;> decide

/-- The shortest legal cadence. -/
theorem witness_SnapshotsRecur :
    (cadenceRun 1).cfg.cadenceUs ≤ 2 ^ ((cadenceRun 1).cfg.tsW - 1) ∧ (∃ t, RunsTo (1 + 5) (cadenceRun 1) t) ∧
    ∀ k u v, k < (cadenceRun 1).cfg.cadenceUs + 5 → RunsTo k (cadenceRun 1) u → step u = .next v →
      u.inp.rst = false ∧ TimebaseContract u v ∧ v.now ≠ u.now := by
  refine ⟨by decide, ⟨_, run_succ.mpr ⟨_, step_legal (by decide), run_succ.mpr ⟨_, step_legal (by decide),
    run_succ.mpr ⟨_, step_legal (by decide), run_succ.mpr ⟨_, step_legal (by decide), runs2 (by decide)⟩⟩⟩⟩⟩, ?_⟩
  intro k u v hk hu hv
  obtain ⟨-, rfl⟩ := step_next hv
  obtain rfl := run_iterate hu
  have hk' : k ≤ 5 := Nat.le_of_lt_succ hk
  unfold TimebaseContract
  interval_cases k <;> decide

/-- A publish in an S_WAIT clock whose cadence is due, so that the S_SNAP clock is the next one. -/
theorem witness_PublishReachesNextSnapshot :
    let s := { clockState fsmWait 101600 true false true 100000 1500 with stimulus := [quiet 101601, quiet 101602] }
    s.capPub .ch1 = true ∧ step s = .next (clockNext s) ∧ RunsTo 0 (clockNext s) (clockNext s) ∧
    (clockNext s).state = fsmSnap ∧ (clockNext s).inp.rst = false ∧
    step (clockNext s) = .next (clockNext (clockNext s)) :=
  ⟨by decide, steps (by decide), run_zero _, by decide, by decide, steps (by decide)⟩

theorem witness_FirstIterationIsNeutral : StandardBuild resetRun.cfg ∧ resetRun.inp.rst = true ∧
    ∀ k u, 1 ≤ k → k ≤ 4 → RunsTo k resetRun u → u.inp.rst = false := by
  refine ⟨rfl, rfl, fun k u h1 hk hu => ?_⟩
  obtain rfl := run_iterate hu
  interval_cases k <;> decide

theorem witness_ResetHoldSettles :
    (∀ i, (resetHold.unit i).sync.stages = resetHold.cfg.syncStages) ∧
    RunsTo (resetHold.cfg.syncStages + 1) resetHold (clockNext (clockNext (clockNext resetHold))) ∧
    RunSatisfies (resetHold.cfg.syncStages + 1) resetHold
      (fun u => u.inp.rst = true ∧ u.inp.pwmIn = 0b101#3) := by
  refine ⟨?_, run_succ.mpr ⟨_, step_legal (by decide), runs2 (by decide)⟩, ?_⟩
  · intro i
    cases i <;> rfl
  · intro k hk u hu
    have hk' : k < 3 := hk
    match k, hk' with
    | 0, _ =>
      have h' : resetHold = u := by injection hu
      exact h' ▸ ⟨rfl, rfl⟩
    | n + 1, hn =>
      obtain ⟨v, hv, hr⟩ := run_succ.mp hu
      obtain ⟨-, rfl⟩ := step_next hv
      exact satisfies2 (P := fun u => u.inp.rst = true ∧ u.inp.pwmIn = 0b101#3) (by decide) (by decide) (by decide)
        n (by omega) u hr

theorem witness_StalledTimebaseFreezes : stalled.state = fsmWait ∧
    subMod stalled.cfg.tsW stalled.now stalled.iterStart < stalled.cfg.cadenceUs ∧
    RunsTo 2 stalled (clockNext (clockNext stalled)) ∧
    RunSatisfies 2 stalled (fun u => u.inp.rst = false ∧ u.now = stalled.now) :=
  ⟨rfl, by decide, runs2 (by decide), satisfies2 (by decide) (by decide) (by decide)⟩

theorem witness_TimeOriginDoesNotMatter : quietRun.inp.rst = false ∧ quietRun.stimulus ≠ [] ∧
    step quietRun = .next (clockNext quietRun) := ⟨rfl, by decide, steps (by decide)⟩

/-- The first and the last clock of P1. -/
theorem witness_HarnessDrivesLevels : 0 ≤ p1.run ∧ 20010 ≤ p1.run := by decide

theorem witness_DecimalNumerals : (1082 : Nat) ≠ 0 := by decide

end Sys2Proof.Tests
end

section
/-! PROOFS. The scope family: the operations of a clock take effect together, and R9's conditions are enforced. -/
namespace Sys2Proof.Machine

/-! ### One operation alone, on the start-of-clock state -/

/-- A selector has one operation, and that operation one answer. -/
theorem exec_eq_of_runSelector {x : Selector} {i : Instr} {s a b : State} (hd : decode x = .ok i)
    (he : exec i s = .next a) (hr : runSelector x s = .next b) : a = b := by
  simp only [runSelector, hd, he] at hr
  injection hr

/-- In an S_WAIT clock the FSM writes no unit, so a unit there finds the start-of-clock registers of `s`. Neither
`CAPSEL` nor a capture operation reads the FSM's state, so this carries the rule of a clock over to every `s`. -/
theorem beforeCapture_wait (s : State) (i : Channel) : BeforeCapture { s with state := fsmWait } s i :=
  ⟨rfl, rfl, by simp [State.unit]⟩

/-- A capture unit's operation on the start-of-clock state gives the unit its next registers, but for the
synchroniser's shift (R55) and the snapshot's clear of the flag (R69). -/
theorem runSelector_cap_alone (s : State) (i : Channel) :
    runSelector (.cap i (s.capsel i)) s = .next (s.setUnit i { unitNext s i with
      sync := (s.unit i).sync
      changed := (unitNext { s with state := fsmWait } i).changed }) :=
  runSelector_cap (beforeCapture_wait s i)

/-- The FSM's operation on the start-of-clock state gives the control loop's next state; in S_DERIVE it writes the
colors that the transform's operation writes too (R71). -/
theorem runSelector_fsm_alone {s : State} (hl : s.cfg.legal = true) :
    runSelector (.fsm s.fsmsel) s = .next (fsmNext s) := by
  have hrun := runSelectors_fsm hl
  cases hin : s.inDerive with
  | true =>
    obtain ⟨hr, hd⟩ : s.inp.rst = false ∧ s.state = fsmDerive := by simpa [State.inDerive] using hin
    have hdec : decodeFsm s.fsmsel = .sDerive := by rw [State.fsmsel, hr, hd]; rfl
    simp [runSelector, decode, hdec, exec, execSDerive, fsmNext, hr, hd]
  | false =>
    obtain ⟨t, ht⟩ := exec_answers_next (decodeFsm s.fsmsel) s
    simpa [hin, runSelectors, runSelector, decode, ht] using hrun

/-- The transform's operation on the start-of-clock state writes `HSV` of the hue it reads (R86, R91). -/
theorem runSelector_sec_alone {s : State} (hl : s.cfg.legal = true) :
    runSelector (.sec s.secsel) s = .next (s.setColor (hsv s.cfg s.hueIn)) :=
  runSelector_sec s.secsel (sectorOf_lt hl s.hueIn) s

/-! ### The whole clock -/

/-- An S_DERIVE clock leaves `HSV` of the transform's hue in the color commands (R71). -/
theorem clockNext_color {s : State} (hr : s.inp.rst = false) (hd : s.state = fsmDerive) :
    (clockNext s).cmdR = (hsv s.cfg s.hueIn).r ∧ (clockNext s).cmdG = (hsv s.cfg s.hueIn).g ∧
      (clockNext s).cmdB = (hsv s.cfg s.hueIn).b := by
  simp [clockNext, fsmNext, hr, hd, State.hueIn]

/-- Settles O31: each unit's operation alone gives what `clockNext` holds of that unit. -/
theorem eachUnitActsAsAlone : Obligations.EachUnitActsAsAlone := by
  unfold Obligations.EachUnitActsAsAlone
  intro s t hstep
  obtain ⟨hl, rfl⟩ := step_next hstep
  refine ⟨fun i c a hc ha => ?_, fun f a hf ha => ?_, fun hr hd x a hx ha => ?_⟩
  · obtain rfl := exec_eq_of_runSelector hc ha (runSelector_cap_alone s i)
    simp
  · obtain rfl := exec_eq_of_runSelector hf ha (runSelector_fsm_alone hl)
    rfl
  · obtain rfl := exec_eq_of_runSelector hx ha (runSelector_sec_alone hl)
    exact clockNext_color hr hd

/-! ### Refused builds -/

/-- `step_illegal`, from the clauses of a legal build as propositions (R9). -/
theorem step_refused_of_not_legalClauses {s : State} (h : ¬ LegalClauses s.cfg) :
    step s = .refused .illegalConfiguration :=
  step_illegal (Bool.eq_false_iff.mpr (mt (legal_iff s.cfg).mp h))

/-- Settles O41: R9's conditions are clauses of `LegalClauses`, which the default build meets. -/
theorem illegalConfigurationRefused : Obligations.IllegalConfigurationRefused := by
  unfold Obligations.IllegalConfigurationRefused
  refine ⟨fun s hbroken => step_refused_of_not_legalClauses fun h => hbroken ?_,
    fun s h => ⟨_, step_legal h.legal⟩⟩
  exact ⟨h.minMax, h.maxFits, h.minNeutral, h.neutralMax, h.minOn, h.onMax, h.dead, h.cadencePos, h.cadenceFits,
    h.span, h.stages⟩

end Sys2Proof.Machine
end

section
/-! PROOFS. The state family: what every clock keeps of the registers, and the width invariant from the first reset
clock on. -/
namespace Sys2Proof.Machine

/-! ### Register widths -/

/-- The control loop's registers after its clock fit: they are what one operation leaves (R8). -/
theorem fsmNext_registersFit {s : State} (hl : s.cfg.legal = true) (hf : RegistersFit s) :
    RegistersFit (fsmNext s) :=
  exec_registersFit hl hf (runSelector_fsm_alone hl)

/-- A unit's registers after its clock fit: they are what its own operation alone leaves (R8). -/
theorem unitNext_fits {s : State} (hl : s.cfg.legal = true) (hf : RegistersFit s) (i : Channel) :
    (unitNext s i).riseTs < 2 ^ s.cfg.tsW ∧ (unitNext s i).width < 2 ^ s.cfg.widthW := by
  have hfit := exec_registersFit hl hf (runSelector_cap_alone s i)
  have hts := hfit.riseTs i
  have hw := hfit.width i
  rw [unit_setUnit_same] at hts hw
  exact ⟨hts, hw⟩

/-- A clock keeps every register within its width: the units' registers are `unitNext`'s and the control loop's are
`fsmNext`'s. -/
theorem clockNext_registersFit {s : State} (hl : s.cfg.legal = true) (hf : RegistersFit s) :
    RegistersFit (clockNext s) := by
  obtain ⟨-, -, hiter, hsnap, hbright, hhue, hcolor, houtBright, houtColor⟩ := fsmNext_registersFit hl hf
  have hunit (i : Channel) : ((clockNext s).unit i).riseTs < 2 ^ (clockNext s).cfg.tsW ∧
      ((clockNext s).unit i).width < 2 ^ (clockNext s).cfg.widthW := by
    rw [clockNext_unit, clockNext_cfg]
    exact unitNext_fits hl hf i
  exact ⟨fun i => (hunit i).1, fun i => (hunit i).2, hiter, hsnap, hbright, hhue, hcolor, houtBright, houtColor⟩

/-! ### Widths in range -/

/-- The snapshot widths after a clock (R68, R107): only reset and S_SNAP write them. -/
theorem clockNext_snapW_get (s : State) (i : Channel) :
    (clockNext s).snapW.get i =
      if s.inp.rst then s.neutral else if s.state = fsmSnap then (s.unit i).width else s.snapW.get i := by
  change (fsmNext s).snapW.get i = _
  unfold fsmNext
  split
  · cases i <;> rfl
  · split
    · rw [PerChannel.get_map]
      rfl
    · (repeat' split) <;> rfl

/-- A unit's width after a clock is in range when reset loads `W_NEUTRAL`, or it was in range: a publish gives a value
in range (R30). -/
theorem unitNext_width_inRange {s : State} {i : Channel} (hl : s.cfg.legal = true)
    (h : s.inp.rst = true ∨ WidthInRange s.cfg (s.unit i).width) : WidthInRange s.cfg (unitNext s i).width := by
  unfold unitNext
  dsimp only
  split
  · exact neutral_inRange hl
  · next hr =>
    split
    · exact published_inRange i hl
    · exact h.resolve_left hr

/-- Every width is in range after a reset clock, and after any clock that found every width in range (R30). -/
theorem clockNext_widthsInRange {s : State} (hl : s.cfg.legal = true)
    (h : s.inp.rst = true ∨ WidthsInRange s) : WidthsInRange (clockNext s) := by
  intro i
  rw [clockNext_unit, clockNext_cfg, clockNext_snapW_get]
  refine ⟨unitNext_width_inRange hl (h.imp_right fun hw => (hw i).1), ?_⟩
  split
  · exact neutral_inRange hl
  · next hr =>
    obtain ⟨hwidth, hsnap⟩ := h.resolve_left hr i
    split
    · exact hwidth
    · exact hsnap

/-- The invariant of R30, said of a step, for the induction over a run. -/
theorem step_keeps_widthsInRange (s t : State) (h : WidthsInRange s) (hstep : step s = .next t) :
    WidthsInRange t := by
  obtain ⟨hl, rfl⟩ := step_next hstep
  exact clockNext_widthsInRange hl (.inr h)

/-! ### State code and rise times -/

/-- Every clock ends in a defined state code, from a reserved code too (R49, R67). -/
theorem clockNext_definedCode (s : State) : DefinedCode (clockNext s).state := by
  change DefinedCode (fsmNext s).state
  unfold fsmNext
  split_ifs with hreset hsnap hderive happly hlog hany hwait hdue
  · exact .inr (.inl rfl)
  · exact .inr (.inr (.inl rfl))
  · exact .inr (.inr (.inr (.inl rfl)))
  · exact .inr (.inr (.inr (.inr rfl)))
  · exact .inl rfl
  · exact .inl rfl
  · exact .inr (.inl rfl)
  · exact .inl hwait
  · exact .inl rfl

/-- A unit without a recorded rise has no rise time after a clock, if that held before: CAP_RISE and CAP_RESET write
`rise_ts` and `rise_valid` together (R58, R107). -/
theorem unitNext_riseTs_eq_zero {s : State} {i : Channel}
    (h : (s.unit i).riseValid = false → (s.unit i).riseTs = 0) :
    (unitNext s i).riseValid = false → (unitNext s i).riseTs = 0 := by
  unfold unitNext
  dsimp only
  split
  · exact fun _ => rfl
  · split
    · intro hv
      cases hv
    · exact h

/-! ### The obligations -/

/-- Settles O43: a step is `clockNext`, which keeps each clause of `Inv` by a lemma of its own. -/
theorem stepKeepsInv : Obligations.StepKeepsInv := by
  unfold Obligations.StepKeepsInv
  rintro s t ⟨-, -, hfits, hwidths, hstages, hriseTs⟩ hstep
  obtain ⟨hl, rfl⟩ := step_next hstep
  refine ⟨?legal, clockNext_definedCode s, clockNext_registersFit hl hfits, clockNext_widthsInRange hl (.inr hwidths),
    ?stages, ?riseTs⟩
  case legal => rwa [clockNext_cfg]
  case stages =>
    intro i
    rw [clockNext_unit, clockNext_cfg, ← hstages i]
    exact Synchroniser.stages_shift _ _
  case riseTs =>
    intro i
    rw [clockNext_unit]
    exact unitNext_riseTs_eq_zero (hriseTs i)

/-- Settles O46: the reset clock puts every width in range, and every later step keeps it so. -/
theorem widthsInRangeAfterReset : Obligations.WidthsInRangeAfterReset := by
  unfold Obligations.WidthsInRangeAfterReset
  intro n s t hrst hrun
  obtain ⟨u, hstep, hrest⟩ := run_succ.mp hrun
  obtain ⟨hl, rfl⟩ := step_next hstep
  exact run_induction step_keeps_widthsInRange n _ t (clockNext_widthsInRange hl (.inl hrst)) hrest

end Sys2Proof.Machine
end

section
/-! PROOFS. The memory family: outside reset, a register changes only in a clock of its named writer. -/
namespace Sys2Proof.Machine

/-! ### What the control loop writes -/

/-- Outside reset the control loop's clock is that of one of the four writing states, or it writes the state register
alone: S_WAIT, and the recovery from a reserved code (R49, R79). -/
theorem fsmNext_cases {s : State} (hr : s.inp.rst = false) :
    (s.state = fsmSnap ∧ fsmNext s = { s with
      snapW := s.cap.map CaptureUnit.width, snapChg := s.cap.map CaptureUnit.changed
      iterStart := s.now, state := fsmDerive
      cap := ⟨s.snapClear .ch1, s.snapClear .ch2, s.snapClear .ch3⟩ }) ∨
    (s.state = fsmDerive ∧ fsmNext s = { s with
      cmdOn := fOnoff s.cfg s.snapW.ch1, cmdBright := fBright s.cfg s.snapW.ch2, cmdHue := fHue s.cfg s.snapW.ch3
      cmdR := (hsv s.cfg (fHue s.cfg s.snapW.ch3)).r
      cmdG := (hsv s.cfg (fHue s.cfg s.snapW.ch3)).g
      cmdB := (hsv s.cfg (fHue s.cfg s.snapW.ch3)).b
      state := fsmApply }) ∨
    (s.state = fsmApply ∧ fsmNext s = { s with
      outOn := s.cmdOn, outBright := s.cmdBright, outR := s.cmdR, outG := s.cmdG, outB := s.cmdB
      state := fsmLog }) ∨
    (s.state = fsmLog ∧ fsmNext s = { s with
      emitted := if s.anyChanged then s.emitted ++ [s.dbgRecord] else s.emitted, state := fsmWait }) ∨
    ((s.state ≠ fsmSnap ∧ s.state ≠ fsmDerive ∧ s.state ≠ fsmApply ∧ s.state ≠ fsmLog) ∧
      fsmNext s = { s with state := if s.state = fsmWait ∧ s.cadenceDue = true then fsmSnap else fsmWait }) := by
  by_cases hsnap : s.state = fsmSnap
  · exact .inl ⟨hsnap, fsmNext_snap hr hsnap⟩
  by_cases hderive : s.state = fsmDerive
  · exact .inr (.inl ⟨hderive, by simp [fsmNext, hr, hderive]⟩)
  by_cases happly : s.state = fsmApply
  · exact .inr (.inr (.inl ⟨happly, by simp [fsmNext, hr, happly]⟩))
  by_cases hlog : s.state = fsmLog
  · exact .inr (.inr (.inr (.inl ⟨hlog, by simp [fsmNext, hr, hlog]⟩)))
  refine .inr (.inr (.inr (.inr ⟨⟨hsnap, hderive, happly, hlog⟩, ?_⟩)))
  by_cases hwait : s.state = fsmWait
  · cases hdue : s.cadenceDue with
    | true => simp [fsmNext, hr, hwait, hdue]
    | false =>
      have hself : s = { s with state := fsmWait } := by rw [← hwait]
      simpa [fsmNext, hr, hwait, hdue] using hself
  · simp [fsmNext, hr, hsnap, hderive, happly, hlog, hwait]

/-- Only S_DERIVE writes the command registers (R28, R41). -/
theorem clockNext_commands_unchanged {s : State} (hr : s.inp.rst = false) (hne : s.state ≠ fsmDerive) :
    (clockNext s).cmdOn = s.cmdOn ∧ (clockNext s).cmdBright = s.cmdBright ∧ (clockNext s).cmdHue = s.cmdHue ∧
      (clockNext s).cmdR = s.cmdR ∧ (clockNext s).cmdG = s.cmdG ∧ (clockNext s).cmdB = s.cmdB := by
  obtain ⟨-, h⟩ | ⟨hs, -⟩ | ⟨-, h⟩ | ⟨-, h⟩ | ⟨-, h⟩ := fsmNext_cases hr
  case inr.inl => exact absurd hs hne
  all_goals simp [clockNext, h]

/-- Only S_APPLY writes the output registers (R29, R41). -/
theorem clockNext_outputs_unchanged {s : State} (hr : s.inp.rst = false) (hne : s.state ≠ fsmApply) :
    (clockNext s).outOn = s.outOn ∧ (clockNext s).outBright = s.outBright ∧ (clockNext s).outR = s.outR ∧
      (clockNext s).outG = s.outG ∧ (clockNext s).outB = s.outB := by
  obtain ⟨-, h⟩ | ⟨-, h⟩ | ⟨hs, -⟩ | ⟨-, h⟩ | ⟨-, h⟩ := fsmNext_cases hr
  case inr.inr.inl => exact absurd hs hne
  all_goals simp [clockNext, h]

/-- Only S_SNAP writes the snapshot and `iter_start` (R41). -/
theorem clockNext_snapshot_unchanged {s : State} (hr : s.inp.rst = false) (hne : s.state ≠ fsmSnap) :
    (clockNext s).snapW = s.snapW ∧ (clockNext s).snapChg = s.snapChg ∧
      (clockNext s).iterStart = s.iterStart := by
  obtain ⟨hs, -⟩ | ⟨-, h⟩ | ⟨-, h⟩ | ⟨-, h⟩ | ⟨-, h⟩ := fsmNext_cases hr
  case inl => exact absurd hs hne
  all_goals simp [clockNext, h]

/-- Only S_LOG emits (R78, R80). -/
theorem clockNext_emitted_unchanged {s : State} (hr : s.inp.rst = false) (hne : s.state ≠ fsmLog) :
    (clockNext s).emitted = s.emitted := by
  obtain ⟨-, h⟩ | ⟨-, h⟩ | ⟨-, h⟩ | ⟨hs, -⟩ | ⟨-, h⟩ := fsmNext_cases hr
  case inr.inr.inr.inl => exact absurd hs hne
  all_goals simp [clockNext, h]

/-! ### What a capture unit writes -/

/-- Outside reset only CAP_RISE writes `rise_ts` and `rise_valid` (R41, R58). -/
theorem unitNext_rise_unchanged {s : State} {i : Channel} (hr : s.inp.rst = false) (hne : s.capsel i ≠ 0b001#3) :
    (unitNext s i).riseTs = (s.unit i).riseTs ∧ (unitNext s i).riseValid = (s.unit i).riseValid := by
  have hedge : ¬ (!(s.unit i).prevLevel && s.lvl i) = true := by simpa [capsel_rise, hr] using hne
  simp only [unitNext, hr, if_neg hedge, Bool.false_eq_true, if_false, and_self]

/-- Outside reset only CAP_FALL writes `width` (R41, R59). -/
theorem unitNext_width_unchanged {s : State} {i : Channel} (hr : s.inp.rst = false) (hne : s.capsel i ≠ 0b010#3) :
    (unitNext s i).width = (s.unit i).width := by
  have hedge : ¬ ((s.unit i).prevLevel && !s.lvl i) = true := by simpa [capsel_fall, hr] using hne
  simp only [unitNext, hr, if_neg hedge, Bool.false_eq_true, if_false]

/-! ### The obligation -/

/-- Settles O38: a step is `clockNext`, and each group of registers has one writer. -/
theorem onlyTheNamedWriters : Obligations.OnlyTheNamedWriters := by
  unfold Obligations.OnlyTheNamedWriters
  intro s t hstep hr
  obtain ⟨-, rfl⟩ := step_next hstep
  refine ⟨clockNext_commands_unchanged hr, clockNext_outputs_unchanged hr, clockNext_snapshot_unchanged hr,
    clockNext_emitted_unchanged hr, fun i => ?_⟩
  rw [clockNext_unit]
  exact ⟨unitNext_rise_unchanged hr, unitNext_width_unchanged hr⟩

end Sys2Proof.Machine
end

section
/-! PROOFS. The encoding family: the decoder and the encoder, what a clock does with the words its units form, and the
stimulus programs. -/
namespace Sys2Proof.Machine

/-! ### Decode and encode (R46, R48, R50) -/

/-- An encoding decodes to its operation, with every bit it leaves open. -/
theorem decode_encode (i : Instr) : decode (encode i) = .ok i := by
  cases i
  case capReset i prevLevel lvl => cases prevLevel <;> cases lvl <;> rfl
  case fsmReserved67 low => cases low <;> rfl
  case fsmReset code => revert code; decide
  all_goals rfl

/-- Every `CAPSEL` word is the encoding of the operation it selects (R46). -/
theorem encode_decodeCap (i : Channel) (word : BitVec 3) : encode (decodeCap i word) = .cap i word := by
  cases i <;> revert word <;> decide

/-- Every `FSMSEL` word is the encoding of the operation it selects (R48). -/
theorem encode_decodeFsm : ∀ word : BitVec 4, encode (decodeFsm word) = .fsm word := by
  decide

/-- A `SECSEL` word that selects an operation is its encoding (R50). -/
theorem encode_of_decodeSec : ∀ word : BitVec 3, ∀ i ∈ (decodeSec word).toOption, encode i = .sec word := by
  decide

/-- A selector word that selects an operation is its encoding. -/
theorem encode_of_decode {x : Selector} {i : Instr} (h : decode x = .ok i) : encode i = x := by
  cases x with
  | cap unit word =>
    obtain rfl : decodeCap unit word = i := by simpa [decode] using h
    exact encode_decodeCap unit word
  | fsm word =>
    obtain rfl : decodeFsm word = i := by simpa [decode] using h
    exact encode_decodeFsm word
  | sec word =>
    have hsec : decodeSec word = .ok i := h
    exact encode_of_decodeSec word i (by rw [hsec]; rfl)

/-- A selector byte carries its selector (log entry 13). -/
theorem selectorOfByte_toByte (x : Selector) : selectorOfByte x.toByte = .ok x := by
  cases x with
  | cap i word => cases i <;> revert word <;> decide
  | fsm word => revert word; decide
  | sec word => revert word; decide

/-- Settles O1: the byte form is the word form carried by a byte. -/
theorem decodeEncodeRoundTrip : Obligations.DecodeEncodeRoundTrip := by
  unfold Obligations.DecodeEncodeRoundTrip
  refine ⟨fun i => ⟨decode_encode i, ?_⟩, fun _ _ => encode_of_decode⟩
  rw [decodeByte, encodeByte, selectorOfByte_toByte]
  exact decode_encode i

/-! ### The words of each format -/

/-- Settles O3: each word computes, for each unit's own operations. -/
theorem capselDecode : Obligations.CapselDecode := by
  unfold Obligations.CapselDecode
  intro i
  exact ⟨rfl, rfl, rfl, rfl, rfl, rfl, rfl, rfl⟩

/-- Settles O4: the words with `rst = 1` are encodings of FSM_RESET with the state code as operand. -/
theorem fsmselDecode : Obligations.FsmselDecode := by
  unfold Obligations.FsmselDecode
  exact ⟨rfl, rfl, rfl, rfl, rfl, rfl, rfl, rfl, fun code => decode_encode (.fsmReset code)⟩

/-- At the defaults the sector is the number of the 60-degree band (R88). -/
theorem sectorOf_standard {c : Config} (hc : StandardBuild c) (h : Nat) :
    sectorOf c h = BitVec.ofNat 3 (h % 360 / 60) := by
  rw [hc]
  rfl

/-- A legal build never forms a `SECSEL` word above 101 (R51). -/
theorem sectorOf_ne {c : Config} (hc : c.legal = true) (h : Nat) {word : BitVec 3} (hw : 6 ≤ word.toNat) :
    sectorOf c h ≠ word := by
  rintro rfl
  exact absurd (sectorOf_lt hc h) (Nat.not_lt.mpr hw)

/-- Settles O5: a half-open band is the set of reduced hues with one quotient by 60. -/
theorem sectorBands : Obligations.SectorBands := by
  unfold Obligations.SectorBands
  refine ⟨rfl, rfl, rfl, rfl, rfl, rfl, rfl, rfl, fun c h k hc _ hlo hhi => ?_,
    fun c h hc => ⟨sectorOf_ne hc h (by decide), sectorOf_ne hc h (by decide)⟩⟩
  have hband : h % 360 / 60 = k := by omega
  rw [sectorOf_standard hc, hband]

/-- Settles O15: the open bit of the codes 110 and 111 is an operand that the recovery does not read. -/
theorem reservedStateRecovers : Obligations.ReservedStateRecovers := by
  unfold Obligations.ReservedStateRecovers
  intro s
  exact ⟨rfl, rfl, rfl, rfl, fun _ => rfl⟩

/-! ### A clock's selected operations (R45) -/

theorem andThen_assoc (o : Host.Outcome State Fault Refusal) (f g : State → Host.Outcome State Fault Refusal) :
    andThen (andThen o f) g = andThen o fun s => andThen (f s) g := by
  cases o <;> rfl

/-- A word that selects an operation runs it. -/
theorem runSelector_of_decode {x : Selector} {i : Instr} (h : decode x = .ok i) (s : State) :
    runSelector x s = exec i s := by
  simp only [runSelector, h]

/-- A clock of a legal build runs the words its units form, in the model's order (R45, log entry 6). -/
theorem step_eq_runSelectors {s : State} (hl : s.cfg.legal = true) :
    step s = andThen (runSelectors s.selectors s) fun t => .next t.endOfClock := by
  simp only [step, clockStep, hl, if_true]

/-- When the transform's word takes effect (R45, R47). -/
theorem inDerive_iff {s : State} : s.inDerive = true ↔ s.inp.rst = false ∧ s.state = fsmDerive := by
  simp [State.inDerive]

/-- Settles O30: the words of `State.selectors` run in their order, each as its decoded operation. -/
theorem stepRunsSelectedOperations : Obligations.StepRunsSelectedOperations := by
  unfold Obligations.StepRunsSelectedOperations
  intro s f c1 c2 c3 hl hf h1 h2 h3
  have hfsm : decode (.fsm s.fsmsel) = .ok f := hf
  have hcap1 : decode (.cap .ch1 (s.capsel .ch1)) = .ok c1 := h1
  have hcap2 : decode (.cap .ch2 (s.capsel .ch2)) = .ok c2 := h2
  have hcap3 : decode (.cap .ch3 (s.capsel .ch3)) = .ok c3 := h3
  rw [step_eq_runSelectors hl, State.selectors]
  constructor
  · intro hd
    rw [if_neg (mt inDerive_iff.mp hd)]
    simp only [List.nil_append, runSelectors, runSelector_of_decode hfsm, runSelector_of_decode hcap1,
      runSelector_of_decode hcap2, runSelector_of_decode hcap3, andThen_assoc, andThen_next]
  · intro hd x hx
    have hsec : decode (.sec s.secsel) = .ok x := hx
    rw [if_pos (inDerive_iff.mpr hd)]
    simp only [List.singleton_append, runSelectors, runSelector_of_decode hfsm, runSelector_of_decode hsec,
      runSelector_of_decode hcap1, runSelector_of_decode hcap2, runSelector_of_decode hcap3, andThen_assoc,
      andThen_next]

/-! ### Reset dominates (R47) -/

/-- A unit's registers after a reset clock (R107). -/
theorem unitNext_reset {s : State} (hr : s.inp.rst = true) (i : Channel) :
    unitNext s i = { sync := (s.unit i).sync.shift (lineOf s.inp i), prevLevel := (s.unit i).sync.lvl, riseTs := 0,
                     riseValid := false, width := s.cfg.wNeutral, changed := false } := by
  simp [unitNext, hr, State.lvl, State.neutral, changedNext]

/-- The lines are all a synchroniser samples of the inputs (R14, R55). -/
theorem lineOf_congr {x y : Inputs} (h : x.pwmIn = y.pwmIn) (i : Channel) : lineOf x i = lineOf y i := by
  cases i <;> simp only [lineOf, h]

/-- Settles O36: reset gives each register a constant of the build, or what the synchroniser holds or samples. -/
theorem resetDominates : Obligations.ResetDominates := by
  unfold Obligations.ResetDominates
  intro s s' t t' hr hr' hcfg hlines hsync hstep hstep'
  obtain ⟨-, rfl⟩ := step_next hstep
  obtain ⟨-, rfl⟩ := step_next hstep'
  have hunit (i : Channel) : unitNext s i = unitNext s' i := by
    rw [unitNext_reset hr, unitNext_reset hr', hsync, hcfg, lineOf_congr hlines]
  simp [clockNext, fsmNext, hr, hr', hunit, hcfg, State.neutral]

/-! ### PULSE (R53, R54) -/

/-- A line's expansion makes the settings the line makes (R54). -/
theorem levelSettings_flatMap_expand (i : Channel) (ls : List StimulusLine) :
    levelSettings i (ls.flatMap StimulusLine.expand) = levelSettings i ls := by
  induction ls with
  | nil => rfl
  | cons l ls ih =>
    cases l with
    | rst k v => simp [StimulusLine.expand, levelSettings, ih]
    | ch j k v => simp [StimulusLine.expand, levelSettings, ih]
    | pulse j k n => by_cases hj : j = i <;> simp [StimulusLine.expand, levelSettings, ih, hj]

theorem resetSettings_flatMap_expand (ls : List StimulusLine) :
    resetSettings (ls.flatMap StimulusLine.expand) = resetSettings ls := by
  induction ls with
  | nil => rfl
  | cons l ls ih => cases l <;> simp [StimulusLine.expand, resetSettings, ih]

/-- A line up from clock `k` and down from clock `k + n` is up in the `n` clocks between. -/
theorem settledValue_pulse (m k n : Nat) :
    settledValue m (0, false) [(k, true), (k + n, false)] = decide (k ≤ m ∧ m < k + n) := by
  by_cases hup : k ≤ m
  · by_cases hdown : k + n ≤ m
    · simp [settledValue, hup, hdown]
    · simp [settledValue, hup, hdown, Nat.lt_of_not_le hdown]
  · have hlate : ¬ k + n ≤ m := by omega
    simp [settledValue, hup, hlate]

/-- The distance from one number to a number `d` further on, both modulo `2^n`. -/
theorem subMod_truncate_add_truncate (n a d : Nat) :
    subMod n (truncate n (a + d)) (truncate n a) = truncate n d := by
  have h : ((subMod n (truncate n (a + d)) (truncate n a) : Nat) : Int) = truncate n d := by
    simp only [subMod_cast, truncate, Nat.cast_pow, Nat.cast_ofNat, Int.natCast_emod, Int.emod_sub_emod,
      Int.sub_emod_emod, Nat.cast_add, add_sub_cancel_left]
  exact_mod_cast h

/-- Settles O59: the settings of a program decide its levels, and `time_us` is `T0 + k` truncated. -/
theorem pulseStimulus : Obligations.PulseStimulus := by
  unfold Obligations.PulseStimulus
  refine ⟨fun p i k => ⟨?level, ?reset⟩, fun inv t0 run i k n m => ?single, fun p k n => ?time⟩
  case level => simp only [StimulusProgram.level, levelSettings_flatMap_expand]
  case reset => simp only [StimulusProgram.resetAt, resetSettings_flatMap_expand]
  case single => simpa [StimulusProgram.level, levelSettings] using settledValue_pulse m k n
  case time =>
    have h := subMod_truncate_add_truncate 32 (p.t0 + k) n
    rwa [Nat.add_assoc] at h

/-! ### The harness (R53, R55) -/

/-- What the harness keeps in the state in which a program's clock `k` begins, with `n` clocks of the run to come: the
program's build, its inputs of this clock and of those to come, and in each synchroniser the levels of this clock and
of the next, which its two stages hold at the defaults. -/
structure AtClock (p : StimulusProgram) (k n : Nat) (s : State) : Prop where
  cfg : s.cfg = Config.standard p.invertColor Config.openDbgEol harnessFClk
  inp : s.inp = p.inputs 2 k
  stimulus : s.stimulus = p.inputsFrom 2 (k + 1) n
  sync : ∀ i, (s.unit i).sync = ⟨p.level i (k + 1), [p.level i k]⟩

theorem atClock_start (p : StimulusProgram) : AtClock p 0 p.run p.start :=
  ⟨rfl, rfl, rfl, fun i => by cases i <;> rfl⟩

theorem AtClock.legal {p : StimulusProgram} {k n : Nat} {s : State} (h : AtClock p k n s) : s.cfg.legal = true := by
  rw [h.cfg]
  exact standard_legal _ _ _

/-- The harness changes a line two clocks before its level (R53). -/
theorem lineOf_inputs (p : StimulusProgram) (k : Nat) (i : Channel) :
    lineOf (p.inputs 2 k) i = p.level i (k + 2) := by
  obtain ⟨h0, h1, h2⟩ := bits3_bits (p.level .ch3 (k + 2)) (p.level .ch2 (k + 2)) (p.level .ch1 (k + 2))
  cases i with
  | ch1 => exact h0
  | ch2 => exact h1
  | ch3 => exact h2

/-- A clock of the run takes the program's next inputs, and shifts the level after next into each synchroniser. -/
theorem AtClock.succ {p : StimulusProgram} {k n : Nat} {s : State} (h : AtClock p k (n + 1) s) :
    AtClock p (k + 1) n (clockNext s) where
  cfg := (clockNext_cfg s).trans h.cfg
  inp := drawInputs_cons h.stimulus
  stimulus := congrArg List.tail h.stimulus
  sync i := by
    rw [clockNext_unit, unitNext, h.sync, h.inp, lineOf_inputs]
    rfl

/-- A program's run reaches each of its clocks, with the harness's inputs and levels there. -/
theorem exists_stateAt (p : StimulusProgram) {k n : Nat} (h : k + n = p.run) :
    ∃ s, p.stateAt k = .next s ∧ AtClock p k n s := by
  induction k generalizing n with
  | zero =>
    obtain rfl : n = p.run := by omega
    exact ⟨p.start, rfl, atClock_start p⟩
  | succ k ih =>
    obtain ⟨s, hs, hat⟩ := ih (n := n + 1) (by omega)
    exact ⟨_, run_succ_last.mpr ⟨s, hs, step_legal hat.legal⟩, hat.succ⟩

theorem AtClock.lvl {p : StimulusProgram} {k n : Nat} {s : State} (h : AtClock p k n s) (i : Channel) :
    s.lvl i = p.level i k := by
  rw [State.lvl, h.sync]
  rfl

theorem AtClock.now {p : StimulusProgram} {k n : Nat} {s : State} (h : AtClock p k n s) : s.now = p.time k := by
  rw [State.now, h.cfg, h.inp]
  exact Nat.mod_mod _ _

/-- Settles O60: `AtClock` holds in every clock of the run, whose last clock steps too. -/
theorem harnessDrivesLevels : Obligations.HarnessDrivesLevels := by
  unfold Obligations.HarnessDrivesLevels
  constructor
  · intro p k hk
    obtain ⟨s, hs, hat⟩ := exists_stateAt p (Nat.add_sub_cancel' hk)
    refine ⟨s, hs, hat.lvl, ?_, hat.now, ?_, ?_, ?_⟩
    · rw [hat.inp]; rfl
    · rw [hat.cfg]; rfl
    · rw [hat.cfg]; rfl
    · rw [StimulusProgram.outputsAt, hs]
  · intro p
    obtain ⟨s, hs, hat⟩ := exists_stateAt p (Nat.add_zero p.run)
    exact ⟨s, _, hs, step_legal hat.legal, run_succ_last.mpr ⟨s, hs, step_legal hat.legal⟩⟩

end Sys2Proof.Machine
end

section
/-! PROOFS. The capture family: what a clock does to one capture unit, the synchroniser's delay, and what a unit keeps
along a run. -/
namespace Sys2Proof.Machine

/-! ### The validator and the timestamp delta (R60, R61) -/

/-- Settles O18: `inrange_iff`, and the four values around the default bounds compute. -/
theorem rangeValidator : Obligations.RangeValidator := by
  unfold Obligations.RangeValidator
  refine ⟨inrange_iff, fun c hc => ?_⟩
  obtain ⟨b, eol, f, rfl⟩ := hc.eq
  exact ⟨rfl, rfl, rfl, rfl⟩

/-- The delta is the difference of the two times modulo `2^TS_W`, before the port truncates the later one (R61). -/
theorem elapsed_cast (s : State) (i : Channel) :
    (s.elapsed i : ℤ) = ((s.inp.timeUs : ℤ) - (s.unit i).riseTs) % 2 ^ s.cfg.tsW := by
  rw [State.elapsed, subMod_cast, State.now, truncate]
  push_cast
  exact Int.emod_sub_emod _ _ _

/-- Settles O19: the pulse across the wrap is the modular difference at its two times. -/
theorem timestampDelta : Obligations.TimestampDelta := by
  unfold Obligations.TimestampDelta
  refine ⟨elapsed_cast, fun s i hw hrise hnow => ?_⟩
  have h := elapsed_cast s i
  rw [hw, hrise, hnow] at h
  norm_num at h
  exact_mod_cast h

/-! ### The holds (R57) -/

/-- The publish strobe is 1 exactly in the clocks that select CAP_FALL (R66). -/
theorem capPub_iff {s : State} {i : Channel} : s.capPub i = true ↔ s.capsel i = 0b010#3 := by
  simp [State.capPub, capsel_fall, and_assoc]

theorem capPub_eq_false_iff {s : State} {i : Channel} : s.capPub i = false ↔ s.capsel i ≠ 0b010#3 :=
  Bool.eq_false_iff.trans capPub_iff.not

/-- A holding unit rewrites `prev_level[i]` with the value it has. -/
theorem holdLevel_of_holding {s : State} {i : Channel} (h : Holding s i) : s.holdLevel i = s := by
  have hlvl : s.lvl i = (s.unit i).prevLevel := Eq.symm h
  exact setUnit_self (by rw [hlvl])

/-- The words of the two holds are those of a clock without reset whose line is where it was (R46, R57). -/
theorem holding_of_capsel {s : State} {i : Channel} {b : Bool} (h : s.capsel i = bits3 false b b) : Holding s i := by
  obtain ⟨-, hprev, hlvl⟩ := capsel_iff.mp h
  exact hprev.trans hlvl.symm

/-- Settles O6: both holds are `State.holdLevel`, which is the identity on a holding unit. -/
theorem capHoldChangesNothing : Obligations.CapHoldChangesNothing := by
  unfold Obligations.CapHoldChangesNothing
  intro i s
  have heffect : (s.holdLevel i).unit i = { s.unit i with prevLevel := s.lvl i } := unit_setUnit_same s i _
  have hframe : OnlyUnit i s (s.holdLevel i) := onlyUnit_setUnit i s _
  refine ⟨⟨_, rfl, heffect, hframe⟩, ⟨_, rfl, heffect, hframe⟩, fun hlow => ⟨?_, ?_⟩, fun hhigh => ⟨?_, ?_⟩,
    fun hr hhold => ?_⟩
  · exact capPub_eq_false_iff.mpr (by rw [hlow]; decide)
  · exact congrArg Host.Outcome.next (holdLevel_of_holding (holding_of_capsel (b := false) hlow))
  · exact capPub_eq_false_iff.mpr (by rw [hhigh]; decide)
  · exact congrArg Host.Outcome.next (holdLevel_of_holding (holding_of_capsel (b := true) hhigh))
  · have hword : s.capsel i = bits3 false (s.lvl i) (s.lvl i) := capsel_iff.mpr ⟨hr, hhold, rfl⟩
    rw [hword]
    cases s.lvl i with
    | false => exact .inl rfl
    | true => exact .inr rfl

/-! ### A rise and a fall (R58, R59) -/

/-- The snapshot of an S_SNAP clock is the start-of-clock width and flag (R68). -/
theorem clockNext_snapshot_get {s : State} (hr : s.inp.rst = false) (hs : s.state = fsmSnap) (i : Channel) :
    (clockNext s).snapW.get i = (s.unit i).width ∧ (clockNext s).snapChg.get i = (s.unit i).changed := by
  simp [clockNext, fsmNext_snap hr hs, State.unit]

/-- CAP_RISE in a clock records the time of that clock (R58). -/
theorem unitNext_of_rise {s : State} {i : Channel} (h : s.capsel i = 0b001#3) :
    (unitNext s i).riseTs = s.now ∧ (unitNext s i).riseValid = true := by
  obtain ⟨hr, hprev, hlvl⟩ := capsel_rise.mp h
  simp [unitNext, hr, hprev, hlvl]

/-- CAP_FALL in a clock publishes and sets the flag, in an S_SNAP clock too (R59, R69). -/
theorem unitNext_of_fall {s : State} {i : Channel} (h : s.capsel i = 0b010#3) :
    (unitNext s i).width = s.published i ∧ (unitNext s i).changed = true := by
  obtain ⟨hr, hprev, hlvl⟩ := capsel_fall.mp h
  simp [unitNext, hr, hprev, hlvl, changedNext, State.capPub]

/-- The published width with the validator's condition written out (R59, R60). -/
theorem published_eq (s : State) (i : Channel) :
    s.published i =
      if (s.unit i).riseValid = true ∧ s.cfg.wMin ≤ s.elapsed i ∧ s.elapsed i ≤ s.cfg.wMax
      then truncate s.cfg.widthW (s.elapsed i) else s.cfg.wNeutral :=
  if_congr (by rw [Bool.and_eq_true, inrange_iff]) rfl rfl

/-- Settles O7: the operation is one unit update, and the S_SNAP clock reads the registers from before it. -/
theorem capRiseRecordsStart : Obligations.CapRiseRecordsStart := by
  unfold Obligations.CapRiseRecordsStart
  intro i s
  refine ⟨rfl, fun hc => capPub_eq_false_iff.mpr (by rw [hc]; decide), _, rfl, unit_setUnit_same s i _,
    onlyUnit_setUnit i s _, fun u hc hs hstep => ?_⟩
  obtain ⟨-, rfl⟩ := step_next hstep
  obtain ⟨hr, -⟩ := capsel_rise.mp hc
  obtain ⟨hwidth, hflag⟩ := clockNext_snapshot_get hr hs i
  rw [clockNext_unit]
  exact ⟨hwidth, hflag, (unitNext_of_rise hc).1⟩

/-- Settles O8: the operation is one unit update with `published_eq`; in the S_SNAP clock the publish wins over the
clear, and the snapshot reads the width from before it. -/
theorem capFallPublishes : Obligations.CapFallPublishes := by
  unfold Obligations.CapFallPublishes
  intro i s
  refine ⟨rfl, capPub_iff.mpr, _, rfl, ?_, onlyUnit_setUnit i s _, fun u hc hs hstep => ?_⟩
  · rw [unit_setUnit_same, published_eq]
    rfl
  · obtain ⟨-, rfl⟩ := step_next hstep
    obtain ⟨hr, -⟩ := capsel_fall.mp hc
    rw [clockNext_unit]
    exact ⟨(clockNext_snapshot_get hr hs i).1, (unitNext_of_fall hc).2⟩

/-! ### Channel independence (R63) -/

/-- What `unitNext` reads: its own unit and line, reset, the time, the build, and the FSM's state. -/
theorem unitNext_congr {s s' : State} {i : Channel} (hunit : s.unit i = s'.unit i) (hcfg : s.cfg = s'.cfg)
    (hr : s.inp.rst = s'.inp.rst) (htime : s.inp.timeUs = s'.inp.timeUs)
    (hline : lineOf s.inp i = lineOf s'.inp i) (hstate : s.state = s'.state) : unitNext s i = unitNext s' i := by
  have hlvl : s.lvl i = s'.lvl i := by rw [State.lvl, State.lvl, hunit]
  have hnow : s.now = s'.now := by rw [State.now, State.now, hcfg, htime]
  have hneutral : s.neutral = s'.neutral := by rw [State.neutral, State.neutral, hcfg]
  have helapsed : s.elapsed i = s'.elapsed i := by rw [State.elapsed, State.elapsed, hunit, hcfg, hnow]
  have hpublished : s.published i = s'.published i := by
    rw [State.published, State.published, helapsed, hneutral, hunit, hcfg]
  simp only [unitNext, State.capPub, hunit, hr, hline, hstate, hlvl, hnow, hneutral, hpublished]

/-- Settles O37: a step gives a unit `unitNext`, which reads no other unit. -/
theorem channelIndependence : Obligations.ChannelIndependence := by
  unfold Obligations.ChannelIndependence
  intro s s' t t' i hunit hcfg hr htime hline hstate hstep hstep'
  obtain ⟨-, rfl⟩ := step_next hstep
  obtain ⟨-, rfl⟩ := step_next hstep'
  rw [clockNext_unit, clockNext_unit]
  exact unitNext_congr hunit hcfg hr htime hline hstate

/-! ### The synchroniser's delay (R55) -/

/-- Stage `k` of the synchroniser, `sync[i][k]` (R18). -/
def Synchroniser.stage (y : Synchroniser) (k : Nat) : Option Bool :=
  (y.first :: y.rest)[k]?

/-- The level is the last stage (R55). -/
theorem Synchroniser.stage_last {y : Synchroniser} {k : Nat} (h : y.stages = k + 1) : y.stage k = some y.lvl := by
  obtain rfl : y.rest.length = k := Nat.succ.inj h
  obtain ⟨first, rest⟩ := y
  rw [Synchroniser.stage, Synchroniser.lvl, List.getLastD_eq_getLast?, List.getLast?_eq_getElem?]
  cases rest <;> simp

theorem Synchroniser.stage_shift_zero (y : Synchroniser) (line : Bool) : (y.shift line).stage 0 = some line :=
  rfl

theorem Synchroniser.stage_shift_succ {y : Synchroniser} {k : Nat} (line : Bool) (h : k + 1 < y.stages) :
    (y.shift line).stage (k + 1) = y.stage k := by
  have hk : k < y.rest.length := Nat.lt_of_succ_lt_succ h
  simp only [Synchroniser.stage, Synchroniser.shift, List.getElem?_cons_succ, List.getElem?_take, if_pos hk]

/-- A sample is in stage `n` after `n + 1` clocks. -/
theorem stage_of_run {n : Nat} {s t : State} {i : Channel} (hrun : RunsTo (n + 1) s t)
    (hn : n < (s.unit i).sync.stages) :
    (t.unit i).sync.stages = (s.unit i).sync.stages ∧ (t.unit i).sync.stage n = some (lineOf s.inp i) := by
  induction n generalizing t with
  | zero =>
    obtain ⟨u, hzero, hstep⟩ := run_succ_last.mp hrun
    obtain rfl : s = u := by injection hzero
    obtain ⟨-, rfl⟩ := step_next hstep
    rw [clockNext_unit]
    exact ⟨Synchroniser.stages_shift _ _, Synchroniser.stage_shift_zero _ _⟩
  | succ n ih =>
    obtain ⟨u, hrun, hstep⟩ := run_succ_last.mp hrun
    obtain ⟨hstages, hstage⟩ := ih hrun (Nat.lt_of_succ_lt hn)
    obtain ⟨-, rfl⟩ := step_next hstep
    rw [clockNext_unit]
    exact ⟨(Synchroniser.stages_shift _ _).trans hstages,
      (Synchroniser.stage_shift_succ _ (hstages.symm ▸ hn)).trans hstage⟩

/-- Settles O47: a sample moves one stage in each clock, and the last stage is the level. -/
theorem synchroniserDelay : Obligations.SynchroniserDelay := by
  unfold Obligations.SynchroniserDelay
  refine ⟨fun s t i hstep => ?_, fun s t i hrun => ?_⟩
  · obtain ⟨-, rfl⟩ := step_next hstep
    rw [clockNext_unit]
    exact ⟨rfl, rfl⟩
  · obtain ⟨hstages, hstage⟩ := stage_of_run hrun (Nat.lt_succ_self _)
    exact Option.some.inj ((Synchroniser.stage_last hstages).symm.trans hstage)

/-! ### A pulse (R58, R59) -/

/-- Unit `i` holds a rise recorded at time `a` in the build `c`. -/
structure RiseRecorded (c : Config) (a : Nat) (i : Channel) (s : State) : Prop where
  cfg : s.cfg = c
  riseTs : (s.unit i).riseTs = a
  riseValid : (s.unit i).riseValid = true

/-- A holding unit performs no edge away from either level `b`. -/
theorem capsel_ne_edge_of_holding {s : State} {i : Channel} (h : Holding s i) (b : Bool) :
    s.capsel i ≠ bits3 false b (!b) := by
  intro hc
  obtain ⟨-, hprev, hlvl⟩ := capsel_iff.mp hc
  rw [Holding, hprev, hlvl] at h
  exact Bool.not_ne_self b h.symm

theorem riseRecorded_after_rise {s : State} {i : Channel} (h : s.capsel i = 0b001#3) :
    RiseRecorded s.cfg s.now i (clockNext s) := by
  obtain ⟨hts, hvalid⟩ := unitNext_of_rise h
  rw [← clockNext_unit] at hts hvalid
  exact ⟨clockNext_cfg s, hts, hvalid⟩

/-- A clock in which the unit holds keeps its recorded rise (R57). -/
theorem RiseRecorded.of_step {c : Config} {a : Nat} {i : Channel} (s t : State) (h : RiseRecorded c a i s)
    (hq : s.inp.rst = false ∧ Holding s i) (hstep : step s = .next t) : RiseRecorded c a i t := by
  obtain ⟨hr, hhold⟩ := hq
  obtain ⟨-, rfl⟩ := step_next hstep
  obtain ⟨hts, hvalid⟩ := unitNext_rise_unchanged hr (capsel_ne_edge_of_holding hhold false)
  rw [← clockNext_unit] at hts hvalid
  exact ⟨(clockNext_cfg s).trans h.cfg, hts.trans h.riseTs, hvalid.trans h.riseValid⟩

/-- After a recorded rise the whole delta is published when it is in range: `W_MAX` fits a width (R9, R59). -/
theorem RiseRecorded.published {s : State} {c : Config} {a : Nat} {i : Channel} (h : RiseRecorded c a i s)
    (hl : s.cfg.legal = true) :
    s.published i = if c.wMin ≤ subMod c.tsW s.now a ∧ subMod c.tsW s.now a ≤ c.wMax
      then subMod c.tsW s.now a else c.wNeutral := by
  obtain ⟨rfl, rfl, hvalid⟩ := h
  rw [published_eq]
  simp only [hvalid, true_and, State.elapsed]
  refine ite_congr rfl (fun hin => ?_) fun _ => rfl
  exact truncate_of_lt (lt_of_le_of_lt hin.2 ((legal_iff _).mp hl).maxFits)

/-- Settles O48: the rise is recorded, the holds keep it, and the fall publishes the delta to it. -/
theorem pulseIsMeasured : Obligations.PulseIsMeasured := by
  unfold Obligations.PulseIsMeasured
  intro n i s u t hrise hrun hholds hfall hstep
  obtain ⟨v, hfirst, hrest⟩ := run_succ.mp hrun
  have hquiet : RunSatisfies n v fun m => m.inp.rst = false ∧ Holding m i := fun k hk m hm =>
    hholds (k + 1) (by omega) (by omega) m (run_succ.mpr ⟨v, hfirst, hm⟩)
  obtain ⟨-, rfl⟩ := step_next hfirst
  have hrec : RiseRecorded s.cfg s.now i u :=
    run_induction_while RiseRecorded.of_step n _ u (riseRecorded_after_rise hrise) hrest hquiet
  obtain ⟨hl, rfl⟩ := step_next hstep
  obtain ⟨hwidth, hflag⟩ := unitNext_of_fall hfall
  rw [clockNext_unit]
  exact ⟨hwidth.trans (hrec.published hl), hflag⟩

/-! ### A silent line (R65) -/

theorem RunSatisfies.head {n : Nat} {s : State} {P : State → Prop} (h : RunSatisfies (n + 1) s P) : P s :=
  h 0 (Nat.succ_pos n) s (run_zero s)

theorem RunSatisfies.tail {n : Nat} {s u : State} {P : State → Prop} (h : RunSatisfies (n + 1) s P)
    (hstep : step s = .next u) : RunSatisfies n u P :=
  fun k hk v hv => h (k + 1) (Nat.succ_lt_succ hk) v (run_succ.mpr ⟨u, hstep, hv⟩)

/-- A clock without reset and without a publish leaves the flag 0 when it was 0 or the clock is a snapshot's (R69). -/
theorem unitNext_changed_of_silent {s : State} {i : Channel} (hr : s.inp.rst = false) (hp : s.capPub i = false)
    (h : s.state = fsmSnap ∨ (s.unit i).changed = false) : (unitNext s i).changed = false := by
  obtain hsnap | hflag := h
  · simp [unitNext, changedNext, hr, hp, hsnap]
  · simp [unitNext, changedNext, hr, hp, hflag]

/-- Settles O49: the width is kept from the first clock on, and the flag from the clock after the snapshot on. -/
theorem silentLineKeepsWidth : Obligations.SilentLineKeepsWidth := by
  unfold Obligations.SilentLineKeepsWidth
  refine ⟨fun n i s t hrun hsilent => ?width, fun n i s t hsnap hrun hsilent => ?flag⟩
  case width =>
    refine run_induction_while (P := fun u => (u.unit i).width = (s.unit i).width) (fun u v hu hq hstep => ?_)
      n s t rfl hrun hsilent
    obtain ⟨hr, hp⟩ := hq
    obtain ⟨-, rfl⟩ := step_next hstep
    rw [clockNext_unit]
    exact (unitNext_width_unchanged hr (capPub_eq_false_iff.mp hp)).trans hu
  case flag =>
    obtain ⟨v, hfirst, hrest⟩ := run_succ.mp hrun
    have hsilent' := hsilent.tail hfirst
    obtain ⟨hr, hp⟩ := hsilent.head
    obtain ⟨-, rfl⟩ := step_next hfirst
    refine run_induction_while (P := fun u => (u.unit i).changed = false) (fun u v hu hq hstep => ?_)
      n _ t ?_ hrest hsilent'
    · obtain ⟨hr, hp⟩ := hq
      obtain ⟨-, rfl⟩ := step_next hstep
      rw [clockNext_unit]
      exact unitNext_changed_of_silent hr hp (.inr hu)
    · rw [clockNext_unit]
      exact unitNext_changed_of_silent hr hp (.inl hsnap)

/-! ### Alternating edges (R62) -/

/-- A clock without reset that has no edge away from the level `b` keeps `prev_level[i] = b` (R56). -/
theorem prevLevel_step {i : Channel} {b : Bool} (s t : State) (h : (s.unit i).prevLevel = b)
    (hq : s.inp.rst = false ∧ s.capsel i ≠ bits3 false b (!b)) (hstep : step s = .next t) :
    (t.unit i).prevLevel = b := by
  obtain ⟨hr, hstay⟩ := hq
  obtain ⟨-, rfl⟩ := step_next hstep
  rw [clockNext_unit]
  by_contra hne
  exact hstay (capsel_iff.mpr ⟨hr, h, Bool.eq_not_of_ne hne⟩)

/-- After an edge to the level `b` there is no edge to `b` before one away from it. -/
theorem no_second_edge {n : Nat} {i : Channel} {b : Bool} {s t : State} (hedge : s.capsel i = bits3 false (!b) b)
    (hrun : RunsTo (n + 1) s t)
    (hstay : RunSatisfies (n + 1) s fun u => u.inp.rst = false ∧ u.capsel i ≠ bits3 false b (!b)) :
    t.capsel i ≠ bits3 false (!b) b := by
  obtain ⟨v, hfirst, hrest⟩ := run_succ.mp hrun
  have hstay' := hstay.tail hfirst
  obtain ⟨-, rfl⟩ := step_next hfirst
  obtain ⟨-, -, hlvl⟩ := capsel_iff.mp hedge
  have hstart : ((clockNext s).unit i).prevLevel = b := by rw [clockNext_unit]; exact hlvl
  have hprev : (t.unit i).prevLevel = b := run_induction_while prevLevel_step n _ t hstart hrest hstay'
  intro hsecond
  obtain ⟨-, hopposite, -⟩ := capsel_iff.mp hsecond
  exact Bool.not_ne_self b (hopposite.symm.trans hprev)

/-- The first edge after a clock leaves the level of that clock, which the clock loaded into `prev_level[i]` (R56) and a
reset clock too (R107). -/
theorem first_edge_leaves_level {n : Nat} {i : Channel} {s t u : State} (hstep : step s = .next t)
    (hrun : RunsTo n t u) (hholds : RunSatisfies n t fun m => m.inp.rst = false ∧ Holding m i)
    (hr : u.inp.rst = false) (hedge : ¬ Holding u i) : u.capsel i = bits3 false (s.lvl i) (!s.lvl i) := by
  obtain ⟨-, rfl⟩ := step_next hstep
  have hstart : ((clockNext s).unit i).prevLevel = s.lvl i := by rw [clockNext_unit]; rfl
  have hprev : (u.unit i).prevLevel = s.lvl i := run_induction_while prevLevel_step n _ u hstart hrun
    fun k hk m hm => (hholds k hk m hm).imp_right fun hhold => capsel_ne_edge_of_holding hhold _
  have hlvl : u.lvl i ≠ s.lvl i := fun hsame => hedge (hprev.trans hsame.symm)
  exact capsel_iff.mpr ⟨hr, hprev, Bool.eq_not_of_ne hlvl⟩

/-- Settles O50: CAP_FALL and CAP_RISE are the edges to the levels 0 and 1. -/
theorem edgesAlternate : Obligations.EdgesAlternate := by
  unfold Obligations.EdgesAlternate
  refine ⟨fun n i s t => no_second_edge (b := false), fun n i s t => no_second_edge (b := true),
    fun n i s t u _ hstep hrun hholds hr hedge => ?_⟩
  rw [first_edge_leaves_level hstep hrun hholds hr hedge]
  cases s.lvl i <;> decide

end Sys2Proof.Machine
end

section
/-! PROOFS. The control-loop family, first part: the derivations and the debug line. -/
namespace Sys2Proof.Machine

/-! ### The derivations (R72 to R75) -/

theorem fOnoff_iff (c : Config) (w : Nat) : fOnoff c w = true ↔ w > c.onThreshold := by
  simp only [fOnoff, decide_eq_true_eq, gt_iff_lt]

/-- Settles O20: `fOnoff_iff`, and the two values around the default threshold compute. -/
theorem onOffThreshold : Obligations.OnOffThreshold := by
  unfold Obligations.OnOffThreshold
  refine ⟨fOnoff_iff, fun c hc => ?_⟩
  obtain ⟨b, eol, f, rfl⟩ := hc.eq
  exact ⟨rfl, rfl⟩

theorem span_cast_nonneg {c : Config} (h : c.wMin < c.wMax) : (0 : ℚ) ≤ (c.wMax : ℚ) - c.wMin :=
  sub_nonneg.mpr (Nat.cast_le.mpr h.le)

/-- The model's integer division is the floor of the exact quotient (R73). -/
theorem floor_quotient_eq_fdiv {c : Config} (h : c.wMin < c.wMax) (w m : Nat) :
    ⌊(((w : ℚ) - c.wMin) * m) / ((c.wMax : ℚ) - c.wMin)⌋ =
      Int.fdiv (((w : ℤ) - c.wMin) * m) ((c.wMax : ℤ) - c.wMin) := by
  have hspan : ((c.wMax - c.wMin : ℕ) : ℤ) = (c.wMax : ℤ) - c.wMin := Nat.cast_sub h.le
  rw [← hspan, Int.fdiv_eq_ediv_of_nonneg _ (Int.natCast_nonneg _), ← Rat.floor_intCast_div_natCast]
  push_cast [Nat.cast_sub h.le]
  rfl

theorem fMap_cast {c : Config} (h : c.wMin < c.wMax) (w m : Nat) :
    (fMap c w m : ℤ) = min (max ⌊(((w : ℚ) - c.wMin) * m) / ((c.wMax : ℚ) - c.wMin)⌋ 0) m := by
  rw [floor_quotient_eq_fdiv h, fMap, clamp]
  exact Int.toNat_of_nonneg (le_min (le_max_right _ _) (Int.natCast_nonneg m))

/-- Below `W_MIN` the quotient is at most 0, and the map gives 0 (R73). -/
theorem fMap_eq_zero_of_lt {c : Config} (h : c.wMin < c.wMax) {w : Nat} (hw : w < c.wMin) (m : Nat) :
    fMap c w m = 0 := by
  have hoffset : (w : ℚ) - c.wMin ≤ 0 := sub_nonpos.mpr (Nat.cast_le.mpr hw.le)
  have hfloor := Int.floor_nonpos
    (div_nonpos_of_nonpos_of_nonneg (mul_nonpos_of_nonpos_of_nonneg hoffset (Nat.cast_nonneg m))
      (span_cast_nonneg h))
  have hmap := fMap_cast h w m
  rw [max_eq_right hfloor, min_eq_left (Int.natCast_nonneg m)] at hmap
  exact_mod_cast hmap

/-- Settles O21: the integer floor division of the map is the floor over the rationals. -/
theorem linearMapIsExactFloor : Obligations.LinearMapIsExactFloor := by
  unfold Obligations.LinearMapIsExactFloor
  refine ⟨fun c hc => ?_, fun c w m h => ⟨fMap_cast h w m, fun hw => ?_, fun hw => fMap_eq_zero_of_lt h hw m⟩⟩
  · obtain ⟨b, eol, f, rfl⟩ := hc.eq
    rw [fMap_standard]
    rfl
  · have hoffset : (0 : ℚ) ≤ (w : ℚ) - c.wMin := sub_nonneg.mpr (Nat.cast_le.mpr hw)
    exact Int.floor_nonneg.mpr (div_nonneg (mul_nonneg hoffset (Nat.cast_nonneg m)) (span_cast_nonneg h))

/-- Settles O22: at the defaults the mapped value is at most 20 exactly up to width 1082. -/
theorem brightnessDeadZone : Obligations.BrightnessDeadZone := by
  unfold Obligations.BrightnessDeadZone
  refine ⟨fun c w => rfl, fun c w hc => ?_, fun c hc => ?_⟩
  · obtain ⟨b, eol, f, rfl⟩ := hc.eq
    rw [fBright_standard]
    split <;> omega
  · obtain ⟨b, eol, f, rfl⟩ := hc.eq
    rw [fBright_standard, fBright_standard, fBright_standard]
    exact ⟨rfl, rfl, rfl⟩

/-- Settles O23: the hue is the linear map to `HUE_SPAN`, and the values at the defaults compute. -/
theorem hueDegrees : Obligations.HueDegrees := by
  unfold Obligations.HueDegrees
  refine ⟨fun c w => ⟨rfl, fHue_le c w⟩, fun c hc => ?_⟩
  obtain ⟨b, eol, f, rfl⟩ := hc.eq
  simp only [fHue_standard]
  exact ⟨rfl, rfl, rfl, rfl, rfl, rfl⟩

/-! ### The debug line (R81) -/

theorem digitChar_eq : ∀ d, d < 10 → digitChar d = Nat.digitChar d := by
  decide

theorem digitChar_ne_zero : ∀ d, d < 10 → d ≠ 0 → Nat.digitChar d ≠ '0' := by
  decide

/-- With enough fuel the digits are those of the library's decimal numeral. -/
theorem decDigits_eq_toDigits {fuel n : Nat} (h : n ≤ fuel) (tail : List Char) :
    decDigits fuel n tail = Nat.toDigits 10 n ++ tail := by
  induction fuel generalizing n tail with
  | zero =>
    obtain rfl : n = 0 := by omega
    rfl
  | succ fuel ih =>
    rw [decDigits]
    split
    · next hlt => rw [Nat.toDigits_of_lt_base hlt, digitChar_eq n hlt, List.singleton_append]
    · next hge =>
      rw [ih (by omega), digitChar_eq _ (Nat.mod_lt n (by norm_num)),
        Nat.toDigits_of_base_le (by norm_num) (Nat.not_lt.mp hge), List.append_assoc, List.singleton_append]

theorem dec_eq_toDigits (n : Nat) : dec n = Nat.toDigits 10 n := by
  rw [dec, decDigits_eq_toDigits le_rfl, List.append_nil]

theorem dec_length_le_iff {n k : Nat} (hk : 0 < k) : (dec n).length ≤ k ↔ n < 10 ^ k := by
  rw [dec_eq_toDigits]
  exact Nat.length_toDigits_le_iff (by norm_num) hk

theorem dec_length_pos (n : Nat) : 0 < (dec n).length := by
  rw [dec_eq_toDigits]
  exact Nat.length_toDigits_pos

/-- A number from `10^k` on and below `10^(k+1)` has `k + 1` digits. -/
theorem dec_length_eq {n k : Nat} (hk : 0 < k) (hlo : 10 ^ k ≤ n) (hhi : n < 10 ^ (k + 1)) :
    (dec n).length = k + 1 := by
  have hle := (dec_length_le_iff (Nat.succ_pos k)).mpr hhi
  have hgt := mt (dec_length_le_iff hk).mp (Nat.not_lt.mpr hlo)
  omega

/-- The first digit of a number above 0 is not 0: it is the first digit of its tenth, or its only one. -/
theorem toDigits_head_ne_zero (n : Nat) (hn : n ≠ 0) : (Nat.toDigits 10 n).head? ≠ some '0' := by
  induction n using Nat.strong_induction_on with
  | _ n ih =>
    by_cases hlt : n < 10
    · rw [Nat.toDigits_of_lt_base hlt]
      exact fun h => digitChar_ne_zero n hlt hn (Option.some.inj h)
    · rw [Nat.toDigits_of_base_le (by norm_num) (Nat.not_lt.mp hlt),
        List.head?_append_of_ne_nil _ Nat.toDigits_ne_nil]
      exact ih (n / 10) (by omega) (by omega)

/-- Settles O28: `dec` is the library's decimal numeral. -/
theorem decimalNumerals : Obligations.DecimalNumerals := by
  unfold Obligations.DecimalNumerals
  refine ⟨rfl, fun n => ?_⟩
  rw [dec_eq_toDigits]
  exact ⟨Nat.ofDigitChars_ten_toDigits, fun d => Nat.isDigit_of_mem_toDigits (by norm_num) le_rfl,
    Nat.toDigits_ne_nil, toDigits_head_ne_zero n⟩

/-- The line has 30 characters around its five numerals and the terminator. -/
theorem renderLine_length (c : Config) (r : DbgRecord) :
    (renderLine c r).length = 30 + (dec r.ch8).length + (dec r.ch6).length + (dec r.ch7).length +
      (dec r.hue).length + (dec r.bright).length + c.dbgEol.length := by
  simp only [renderLine, List.length_append, List.length_cons, List.length_nil]
  omega

/-- Settles O29: three numerals of four digits, two of one to three, and 30 characters around them. -/
theorem renderedDebugLine : Obligations.RenderedDebugLine := by
  unfold Obligations.RenderedDebugLine
  refine ⟨fun c r h8 h8' h6 h6' h7 h7' hhue hbright => ?_, fun c => rfl⟩
  have four {n : Nat} (hlo : 1000 ≤ n) (hhi : n ≤ 9999) : (dec n).length = 4 :=
    dec_length_eq (k := 3) (by norm_num) hlo (Nat.lt_succ_of_le hhi)
  have atMostThree {n : Nat} (hhi : n ≤ 999) : (dec n).length ≤ 3 :=
    (dec_length_le_iff (by norm_num)).mpr (Nat.lt_succ_of_le hhi)
  have three {n : Nat} (hlo : 100 ≤ n) (hhi : n ≤ 999) : (dec n).length = 3 :=
    dec_length_eq (k := 2) (by norm_num) hlo (Nat.lt_succ_of_le hhi)
  have hhuePos := dec_length_pos r.hue
  have hbrightPos := dec_length_pos r.bright
  have hhue3 := atMostThree hhue
  have hbright3 := atMostThree hbright
  rw [renderLine_length, four h8 h8', four h6 h6', four h7 h7']
  refine ⟨by omega, by omega, fun hhue' hbright' => ?_⟩
  rw [three hhue' hhue, three hbright' hbright]

end Sys2Proof.Machine
end

section
/-! PROOFS. The control-loop family, second part: the FSM's operations and clocks, the ports, and the iterations of a
run. -/
namespace Sys2Proof.Machine

/-! ### One operation alone (R68, R71, R78, R79) -/

theorem cadenceDue_iff {s : State} : s.cadenceDue = true ↔ s.cfg.cadenceUs ≤ subMod s.cfg.tsW s.now s.iterStart := by
  simp only [State.cadenceDue, decide_eq_true_eq]

theorem anyChanged_iff {s : State} :
    s.anyChanged = true ↔ s.snapChg.ch1 = true ∨ s.snapChg.ch2 = true ∨ s.snapChg.ch3 = true := by
  simp only [State.anyChanged, PerChannel.any, Bool.or_eq_true, or_assoc]

theorem anyChanged_iff_exists {s : State} : s.anyChanged = true ↔ ∃ i, s.snapChg.get i = true := by
  rw [anyChanged_iff]
  constructor
  · rintro (h | h | h)
    · exact ⟨.ch1, h⟩
    · exact ⟨.ch2, h⟩
    · exact ⟨.ch3, h⟩
  · rintro ⟨i, h⟩
    cases i with
    | ch1 => exact .inl h
    | ch2 => exact .inr (.inl h)
    | ch3 => exact .inr (.inr h)

/-- The clear of S_SNAP keeps a flag only where its unit publishes in this clock (R68). -/
theorem snapClear_eq (s : State) (i : Channel) :
    s.snapClear i = { s.unit i with changed := s.capPub i && (s.unit i).changed } := by
  rw [State.snapClear]
  cases s.capPub i <;> rfl

/-- Settles O10: the operation branches on `State.cadenceDue`. -/
theorem waitForCadence : Obligations.WaitForCadence := by
  unfold Obligations.WaitForCadence
  intro s
  refine ⟨rfl, fun hdue => ?_, fun hearly => ?_⟩
  · exact congrArg Host.Outcome.next (if_pos (cadenceDue_iff.mpr hdue))
  · exact congrArg Host.Outcome.next (if_neg (mt cadenceDue_iff.mp (Nat.not_le.mpr hearly)))

/-- Settles O11: the operation is one record update, and `snapClear_eq` is its clear of the flags. -/
theorem snapCopiesAndClears : Obligations.SnapCopiesAndClears := by
  unfold Obligations.SnapCopiesAndClears
  intro s
  refine ⟨rfl, _, rfl, fun i => ⟨PerChannel.get_map _ _ i, PerChannel.get_map _ _ i, ?_⟩, rfl, rfl, rfl⟩
  rw [← snapClear_eq]
  cases i <;> rfl

/-- Settles O12: the operation is the update of R71. -/
theorem deriveFromSnapshot : Obligations.DeriveFromSnapshot := by
  unfold Obligations.DeriveFromSnapshot
  exact fun s => ⟨rfl, rfl⟩

/-- Settles O14: the operation branches on `State.anyChanged`. -/
theorem logEmitsWhenChanged : Obligations.LogEmitsWhenChanged := by
  unfold Obligations.LogEmitsWhenChanged
  intro s
  refine ⟨rfl, fun hset => ?_, fun h1 h2 h3 => ?_⟩
  · simp only [exec, execSLog, anyChanged_iff.mpr hset, if_true, State.dbgRecord]
  · have hnone : ¬ s.anyChanged = true := by simp [anyChanged_iff, h1, h2, h3]
    simp only [exec, execSLog, if_neg hnone]

/-- Settles O13: the operation is the update of R76, and no other clock without reset writes the outputs. -/
theorem applyCommands : Obligations.ApplyCommands := by
  unfold Obligations.ApplyCommands
  intro s
  refine ⟨rfl, rfl, fun t hr hne hstep => ?_⟩
  obtain ⟨-, rfl⟩ := step_next hstep
  exact clockNext_outputs_unchanged hr hne

/-! ### The ports (R77, R80, R82, R95) -/

/-- The inversion of a value within the default scale is `255 - v` (R95). -/
theorem invert_cast {c : Config} (hc : StandardBuild c) (hinv : c.invertColor = true) {v : Nat}
    (hv : v < 2 ^ c.intensityW) : (invert c v : ℤ) = 255 - v := by
  obtain ⟨b, eol, f, rfl⟩ := hc.eq
  have hv' : v ≤ 255 := Nat.le_of_lt_succ hv
  rw [invert, if_pos hinv]
  exact Nat.cast_sub hv'

/-- Settles O26: the pins are the registers, but for the inversion stage on the color lines. -/
theorem actuatorPins : Obligations.ActuatorPins := by
  unfold Obligations.ActuatorPins
  refine fun s => ⟨rfl, rfl, fun hinv => ?_, fun hc hinv hfit => ?_⟩
  · simp [State.ledR, State.ledG, State.ledB, invert, hinv]
  · obtain ⟨hr, hg, hb⟩ := hfit.outColor
    exact ⟨invert_cast hc hinv hr, invert_cast hc hinv hg, invert_cast hc hinv hb⟩

theorem dbgValid_iff {s : State} :
    s.dbgValid = true ↔ s.inp.rst = false ∧ s.state = fsmLog ∧ s.anyChanged = true := by
  simp only [State.dbgValid, Bool.and_eq_true, Bool.not_eq_true', decide_eq_true_eq, and_assoc]

/-- Settles O27: `dbgValid_iff`, and the fields are those of `State.dbgRecord`. -/
theorem debugPort : Obligations.DebugPort := by
  unfold Obligations.DebugPort
  intro s
  rw [dbgValid_iff, anyChanged_iff]
  exact ⟨Iff.rfl, rfl, rfl, rfl, rfl, rfl⟩

/-- What leaves the block in a clock is what the debug port says (R80, R82, log entry 12). -/
theorem clockNext_emitted (s : State) :
    (clockNext s).emitted = s.emitted ++ (if s.dbgValid = true then [s.dbgRecord] else []) := by
  change (fsmNext s).emitted = _
  cases hr : s.inp.rst with
  | true => simp [dbgValid_iff, fsmNext, hr]
  | false =>
    by_cases hlog : s.state = fsmLog
    · by_cases hany : s.anyChanged = true
      · simp [dbgValid_iff, fsmNext, hr, hlog, hany]
      · simp [dbgValid_iff, fsmNext, hr, hlog, hany]
    · have hkept : (fsmNext s).emitted = s.emitted := clockNext_emitted_unchanged hr hlog
      simp [dbgValid_iff, hkept, hlog]

/-- Settles O39: a step is `clockNext`. -/
theorem emissionFollowsDebugPort : Obligations.EmissionFollowsDebugPort := by
  unfold Obligations.EmissionFollowsDebugPort
  intro s t hstep
  obtain ⟨-, rfl⟩ := step_next hstep
  exact clockNext_emitted s

/-! ### The snapshot arbiter (R69, R70) -/

/-- Without reset a publish wins, S_SNAP clears otherwise, and the flag is kept otherwise (R69). -/
theorem unitNext_changed {s : State} {i : Channel} (hr : s.inp.rst = false) :
    (unitNext s i).changed = (s.capPub i || (!decide (s.state = fsmSnap) && (s.unit i).changed)) := by
  simp only [unitNext, changedNext, hr]
  cases s.capPub i <;> cases decide (s.state = fsmSnap) <;> rfl

/-- Settles O32: reset clears by `unitNext_reset`, and `unitNext_changed` is the rest of the equation. -/
theorem changedArbiter : Obligations.ChangedArbiter := by
  unfold Obligations.ChangedArbiter
  intro s t i hstep
  obtain ⟨-, rfl⟩ := step_next hstep
  rw [clockNext_unit]
  refine ⟨fun hr => ?reset, fun hr hp => ?publish, fun hr hp hs => ?clear, fun hr hp hs => ?keep⟩
  case reset => rw [unitNext_reset hr]
  case publish => simp [unitNext_changed hr, hp]
  case clear => simp [unitNext_changed hr, hp, hs]
  case keep => simp [unitNext_changed hr, hp, hs]

/-- Settles O33: the snapshot reads the start of the clock, in which the unit performs CAP_FALL. -/
theorem snapshotCollision : Obligations.SnapshotCollision := by
  unfold Obligations.SnapshotCollision
  intro s i hl hr hs hprev hlvl
  obtain ⟨hsnapW, hsnapChg⟩ := clockNext_snapshot_get hr hs i
  obtain ⟨hwidth, hflag⟩ := unitNext_of_fall (capsel_fall.mpr ⟨hr, hprev, hlvl⟩)
  refine ⟨_, step_legal hl, hsnapW, hsnapChg, ?_, ?_⟩
  · rw [clockNext_unit, hwidth]
    exact if_congr Bool.and_eq_true_iff rfl rfl
  · rw [clockNext_unit, hflag]

/-- A clock without reset, publish or snapshot keeps a unit's width and its set flag (R65, R69). -/
theorem pending_publish_kept {i : Channel} {w : Nat} (s t : State)
    (h : (s.unit i).width = w ∧ (s.unit i).changed = true)
    (hq : s.inp.rst = false ∧ s.capPub i = false ∧ s.state ≠ fsmSnap) (hstep : step s = .next t) :
    (t.unit i).width = w ∧ (t.unit i).changed = true := by
  obtain ⟨hwidth, hflag⟩ := h
  obtain ⟨hr, hp, hs⟩ := hq
  obtain ⟨-, rfl⟩ := step_next hstep
  rw [clockNext_unit]
  refine ⟨(unitNext_width_unchanged hr (capPub_eq_false_iff.mp hp)).trans hwidth, ?_⟩
  simp [unitNext_changed hr, hs, hflag]

/-- Settles O54: the publish sets the flag, and both stand until the S_SNAP clock reads them. -/
theorem publishReachesNextSnapshot : Obligations.PublishReachesNextSnapshot := by
  unfold Obligations.PublishReachesNextSnapshot
  intro n i s t u v hpub hstep hrun hquiet hs hr hsnap
  obtain ⟨-, rfl⟩ := step_next hstep
  obtain ⟨-, rfl⟩ := step_next hsnap
  have hset : ((clockNext s).unit i).changed = true := by
    rw [clockNext_unit]
    exact (unitNext_of_fall (capPub_iff.mp hpub)).2
  obtain ⟨hwidth, hflag⟩ := run_induction_while pending_publish_kept n _ u ⟨rfl, hset⟩ hrun hquiet
  obtain ⟨hsnapW, hsnapChg⟩ := clockNext_snapshot_get hr hs i
  exact ⟨hsnapW.trans hwidth, hsnapChg.trans hflag⟩

/-! ### The state code after a clock (R67) -/

theorem clockNext_state_of_reset {s : State} (hr : s.inp.rst = true) : (clockNext s).state = fsmSnap := by
  simp [clockNext, fsmNext, hr]

theorem clockNext_state_of_snap {s : State} (hr : s.inp.rst = false) (hs : s.state = fsmSnap) :
    (clockNext s).state = fsmDerive := by
  simp [clockNext, fsmNext, hr, hs]

theorem clockNext_state_of_derive {s : State} (hr : s.inp.rst = false) (hs : s.state = fsmDerive) :
    (clockNext s).state = fsmApply := by
  simp [clockNext, fsmNext, hr, hs]

theorem clockNext_state_of_apply {s : State} (hr : s.inp.rst = false) (hs : s.state = fsmApply) :
    (clockNext s).state = fsmLog := by
  simp [clockNext, fsmNext, hr, hs]

theorem clockNext_state_of_log {s : State} (hr : s.inp.rst = false) (hs : s.state = fsmLog) :
    (clockNext s).state = fsmWait := by
  simp [clockNext, fsmNext, hr, hs]

theorem clockNext_state_of_due {s : State} (hr : s.inp.rst = false) (hs : s.state = fsmWait)
    (hdue : s.cfg.cadenceUs ≤ subMod s.cfg.tsW s.now s.iterStart) : (clockNext s).state = fsmSnap := by
  simp [clockNext, fsmNext, hr, hs, cadenceDue_iff.mpr hdue]

theorem clockNext_state_of_early {s : State} (hr : s.inp.rst = false) (hs : s.state = fsmWait)
    (hearly : subMod s.cfg.tsW s.now s.iterStart < s.cfg.cadenceUs) : (clockNext s).state = fsmWait := by
  simp [clockNext, fsmNext, hr, hs, mt cadenceDue_iff.mp (Nat.not_le.mpr hearly)]

theorem clockNext_state_of_reserved {s : State} (hr : s.inp.rst = false)
    (hs : s.state = 0b101#3 ∨ s.state = 0b110#3 ∨ s.state = 0b111#3) : (clockNext s).state = fsmWait := by
  obtain hs | hs | hs := hs
  all_goals simp [clockNext, fsmNext, hr, hs]

/-- Settles O34: one lemma per transition. -/
theorem fsmTransitions : Obligations.FsmTransitions := by
  unfold Obligations.FsmTransitions
  intro s hl
  exact ⟨_, step_legal hl, clockNext_state_of_reset, fun hr => ⟨clockNext_state_of_snap hr,
    clockNext_state_of_derive hr, clockNext_state_of_apply hr, clockNext_state_of_log hr, clockNext_state_of_due hr,
    clockNext_state_of_early hr, clockNext_state_of_reserved hr⟩⟩

/-! ### The order snapshot, derive, actuate, log (R67, R71, R76) -/

/-- After an S_DERIVE clock the commands are those of the snapshot (R71). -/
theorem commandsMatch_of_derive {s : State} (hr : s.inp.rst = false) (hs : s.state = fsmDerive) :
    CommandsMatch (clockNext s) := by
  constructor <;> simp [clockNext, fsmNext, hr, hs]

/-- A clock that writes neither the snapshot nor the commands keeps their agreement. -/
theorem CommandsMatch.afterClock {s : State} (h : CommandsMatch s) (hr : s.inp.rst = false) (hsnap : s.state ≠ fsmSnap)
    (hderive : s.state ≠ fsmDerive) : CommandsMatch (clockNext s) := by
  obtain ⟨hsnapW, -, -⟩ := clockNext_snapshot_unchanged hr hsnap
  obtain ⟨hon, hbright, hhue, hred, hgreen, hblue⟩ := clockNext_commands_unchanged hr hderive
  refine ⟨?_, ?_, ?_, ?_⟩
  · rw [hon, hsnapW, clockNext_cfg, h.on]
  · rw [hbright, hsnapW, clockNext_cfg, h.bright]
  · rw [hhue, hsnapW, clockNext_cfg, h.hue]
  · rw [hred, hgreen, hblue, hsnapW, clockNext_cfg, h.color]

/-- After an S_APPLY clock the outputs are the commands (R76). -/
theorem outputsMatch_of_apply {s : State} (hr : s.inp.rst = false) (hs : s.state = fsmApply) :
    OutputsMatch (clockNext s) := by
  constructor <;> simp [clockNext, fsmNext, hr, hs]

/-- A clock that writes neither the commands nor the outputs keeps their agreement. -/
theorem OutputsMatch.afterClock {s : State} (h : OutputsMatch s) (hr : s.inp.rst = false)
    (hderive : s.state ≠ fsmDerive) (happly : s.state ≠ fsmApply) : OutputsMatch (clockNext s) := by
  obtain ⟨hon, hbright, -, hred, hgreen, hblue⟩ := clockNext_commands_unchanged hr hderive
  obtain ⟨hon', hbright', hred', hgreen', hblue'⟩ := clockNext_outputs_unchanged hr happly
  refine ⟨?_, ?_, ?_⟩
  · rw [hon', hon, h.on]
  · rw [hbright', hbright, h.bright]
  · rw [hred', hgreen', hblue', hred, hgreen, hblue, h.color]

/-- Settles O44: of the five defined codes, S_DERIVE and S_APPLY establish an agreement, S_LOG and S_WAIT keep both, and
S_SNAP and reset end in a code that asks for none. -/
theorem stepKeepsPhase : Obligations.StepKeepsPhase := by
  unfold Obligations.StepKeepsPhase
  rintro s t ⟨hcode, hderived, happlied⟩ hstep
  obtain ⟨-, rfl⟩ := step_next hstep
  cases hr : s.inp.rst with
  | true =>
    have ht := clockNext_state_of_reset hr
    exact ⟨clockNext_definedCode s, by simp [ht], by simp [ht]⟩
  | false =>
    obtain hs | hs | hs | hs | hs := hcode
    case inl =>
      exact ⟨clockNext_definedCode s, fun _ => (hderived (.inr (.inr hs))).afterClock hr (by simp [hs]) (by simp [hs]),
        fun _ => (happlied (.inr hs)).afterClock hr (by simp [hs]) (by simp [hs])⟩
    case inr.inl =>
      have ht := clockNext_state_of_snap hr hs
      exact ⟨clockNext_definedCode s, by simp [ht], by simp [ht]⟩
    case inr.inr.inl =>
      have ht := clockNext_state_of_derive hr hs
      exact ⟨clockNext_definedCode s, fun _ => commandsMatch_of_derive hr hs, by simp [ht]⟩
    case inr.inr.inr.inl =>
      exact ⟨clockNext_definedCode s, fun _ => (hderived (.inl hs)).afterClock hr (by simp [hs]) (by simp [hs]),
        fun _ => outputsMatch_of_apply hr hs⟩
    case inr.inr.inr.inr =>
      exact ⟨clockNext_definedCode s, fun _ => (hderived (.inr (.inl hs))).afterClock hr (by simp [hs]) (by simp [hs]),
        fun _ => (happlied (.inl hs)).afterClock hr (by simp [hs]) (by simp [hs])⟩

/-! ### The actuation's ranges (R74, R75, R91, R107) -/

/-- The brightness is off or above the dead-zone (R74). -/
theorem fBright_allowed (c : Config) (w : Nat) : BrightAllowed c (fBright c w) := by
  unfold fBright
  split
  · exact .inl rfl
  · next hlit => exact .inr ⟨Nat.lt_of_not_le hlit, fMap_le c w c.intMax⟩

/-- The part of `ActuationAllowed` about the commands. -/
structure CommandsAllowed (s : State) : Prop where
  hue : s.cmdHue ≤ s.cfg.hueSpan
  bright : BrightAllowed s.cfg s.cmdBright
  color : ColorAllowed s.cfg ⟨s.cmdR, s.cmdG, s.cmdB⟩

/-- The part of `ActuationAllowed` about the outputs. -/
structure OutputsAllowed (s : State) : Prop where
  bright : BrightAllowed s.cfg s.outBright
  color : ColorAllowed s.cfg ⟨s.outR, s.outG, s.outB⟩

theorem ActuationAllowed.commands {s : State} (h : ActuationAllowed s) : CommandsAllowed s :=
  ⟨h.hue, h.cmdBright, h.cmdColor⟩

theorem ActuationAllowed.outputs {s : State} (h : ActuationAllowed s) : OutputsAllowed s :=
  ⟨h.outBright, h.outColor⟩

/-- Derived commands are allowed. -/
theorem CommandsMatch.allowed {s : State} (h : CommandsMatch s) : CommandsAllowed s where
  hue := h.hue ▸ fHue_le _ _
  bright := h.bright ▸ fBright_allowed _ _
  color := .inr ⟨_, fHue_le _ _, h.color⟩

/-- A clock leaves the commands dark (R107), derived (R71), or as they were. -/
theorem CommandsAllowed.afterClock {s : State} (h : CommandsAllowed s) : CommandsAllowed (clockNext s) := by
  cases hr : s.inp.rst with
  | true => constructor <;> simp [clockNext, fsmNext, hr, BrightAllowed, ColorAllowed]
  | false =>
    by_cases hs : s.state = fsmDerive
    · exact (commandsMatch_of_derive hr hs).allowed
    · obtain ⟨-, hbright, hhue, hred, hgreen, hblue⟩ := clockNext_commands_unchanged hr hs
      refine ⟨?_, ?_, ?_⟩
      · rw [hhue, clockNext_cfg]
        exact h.hue
      · rw [hbright, clockNext_cfg]
        exact h.bright
      · rw [hred, hgreen, hblue, clockNext_cfg]
        exact h.color

/-- A clock leaves the outputs dark (R107), equal to allowed commands (R76), or as they were. -/
theorem OutputsAllowed.afterClock {s : State} (h : OutputsAllowed s) (hcmd : CommandsAllowed s) :
    OutputsAllowed (clockNext s) := by
  cases hr : s.inp.rst with
  | true => constructor <;> simp [clockNext, fsmNext, hr, BrightAllowed, ColorAllowed]
  | false =>
    by_cases hs : s.state = fsmApply
    · have hmatch := outputsMatch_of_apply hr hs
      exact ⟨hmatch.bright ▸ hcmd.afterClock.bright, hmatch.color ▸ hcmd.afterClock.color⟩
    · obtain ⟨-, hbright, hred, hgreen, hblue⟩ := clockNext_outputs_unchanged hr hs
      refine ⟨?_, ?_⟩
      · rw [hbright, clockNext_cfg]
        exact h.bright
      · rw [hred, hgreen, hblue, clockNext_cfg]
        exact h.color

/-- Settles O45: a step keeps the commands allowed, and with them the outputs. -/
theorem stepKeepsActuationAllowed : Obligations.StepKeepsActuationAllowed := by
  unfold Obligations.StepKeepsActuationAllowed
  intro s t h hstep
  obtain ⟨hl, rfl⟩ := step_next hstep
  have hcmd := h.commands.afterClock
  have hout := h.outputs.afterClock h.commands
  exact ⟨(clockNext_cfg s).symm ▸ hl, hcmd.hue, hcmd.bright, hout.bright, hcmd.color, hout.color⟩

/-! ### Runs as iterated clocks -/

theorem iterate_clockNext_cfg (s : State) (k : Nat) : (clockNext^[k] s).cfg = s.cfg := by
  induction k with
  | zero => rfl
  | succ k ih => rw [Function.iterate_succ_apply', clockNext_cfg, ih]

/-- The run of a legal build is `clockNext` iterated. -/
theorem runsTo_iff_iterate {s t : State} {k : Nat} (hl : s.cfg.legal = true) :
    RunsTo k s t ↔ t = clockNext^[k] s := by
  induction k generalizing s with
  | zero => exact ⟨fun h => (Host.Outcome.next.inj h).symm, fun h => h ▸ run_zero s⟩
  | succ k ih =>
    have hl' : (clockNext s).cfg.legal = true := by rwa [clockNext_cfg]
    rw [run_succ, step_legal hl, Function.iterate_succ_apply, ← ih hl']
    exact ⟨fun ⟨u, hu, hrun⟩ => Host.Outcome.next.inj hu ▸ hrun, fun hrun => ⟨_, rfl, hrun⟩⟩

/-- A build that makes a clock is legal (R9). -/
theorem legal_of_run {n : Nat} {s t : State} (hrun : RunsTo (n + 1) s t) : s.cfg.legal = true := by
  obtain ⟨u, hstep, -⟩ := run_succ.mp hrun
  exact (step_next hstep).1

/-! ### An iteration (R67, R68, R71, R76, R83) -/

/-- The FSM's code in clock `k` of an iteration (R67). -/
def iterationCode : Nat → FsmCode
  | 0 => fsmSnap
  | 1 => fsmDerive
  | 2 => fsmApply
  | 3 => fsmLog
  | _ + 4 => fsmWait

theorem iterationCode_succ_ne_snap (k : Nat) : iterationCode (k + 1) ≠ fsmSnap := by
  match k with
  | 0 | 1 | 2 | _ + 3 => simp [iterationCode]

/-- `u` is clock `k` of the iteration whose S_SNAP clock is `s`. -/
structure IterationClock (s : State) (k : Nat) (u : State) : Prop where
  cfg : u.cfg = s.cfg
  state : u.state = iterationCode k
  iterStart : u.iterStart = s.now
  snapshot : ∀ i, u.snapW.get i = (s.unit i).width ∧ u.snapChg.get i = (s.unit i).changed

theorem iterationClock_one {s : State} (hr : s.inp.rst = false) (hs : s.state = fsmSnap) :
    IterationClock s 1 (clockNext s) where
  cfg := clockNext_cfg s
  state := clockNext_state_of_snap hr hs
  iterStart := by simp [clockNext, fsmNext_snap hr hs]
  snapshot := clockNext_snapshot_get hr hs

/-- A clock of the iteration follows another, from clock 4 on while the wait is not due. -/
theorem IterationClock.succ {s u : State} {k : Nat} (h : IterationClock s (k + 1) u) (hr : u.inp.rst = false)
    (hearly : 4 ≤ k + 1 → subMod s.cfg.tsW u.now s.now < s.cfg.cadenceUs) :
    IterationClock s (k + 2) (clockNext u) := by
  obtain ⟨hcfg, hstate, hiter, hsnapshot⟩ := h
  have hne : u.state ≠ fsmSnap := hstate ▸ iterationCode_succ_ne_snap k
  obtain ⟨hsnapW, hsnapChg, hiterStart⟩ := clockNext_snapshot_unchanged hr hne
  refine ⟨(clockNext_cfg u).trans hcfg, ?_, hiterStart.trans hiter, by rwa [hsnapW, hsnapChg]⟩
  match k with
  | 0 => exact clockNext_state_of_derive hr hstate
  | 1 => exact clockNext_state_of_apply hr hstate
  | 2 => exact clockNext_state_of_log hr hstate
  | k + 3 =>
    refine clockNext_state_of_early hr hstate ?_
    rw [hcfg, hiter]
    exact hearly (Nat.le_add_left 4 k)

/-- In the S_LOG clock of an iteration the commands are those of the snapshot, and the outputs are the commands: S_DERIVE
establishes the first, and S_APPLY keeps it and establishes the second. -/
theorem iteration_log_clock {s : State} (hs : s.state = fsmSnap)
    (hr : ∀ k, k < 3 → (clockNext^[k] s).inp.rst = false) :
    IterationClock s 3 (clockNext^[3] s) ∧ CommandsMatch (clockNext^[3] s) ∧ OutputsMatch (clockNext^[3] s) := by
  have hr1 : (clockNext s).inp.rst = false := hr 1 (by omega)
  have hr2 : (clockNext (clockNext s)).inp.rst = false := hr 2 (by omega)
  have hclock1 := iterationClock_one (hr 0 (by omega)) hs
  have hclock2 := hclock1.succ hr1 (by omega)
  have happly : (clockNext (clockNext s)).state = fsmApply := hclock2.state
  have hcommands := commandsMatch_of_derive hr1 hclock1.state
  exact ⟨hclock2.succ hr2 (by omega), hcommands.afterClock hr2 (by simp [happly]) (by simp [happly]),
    outputsMatch_of_apply hr2 happly⟩

/-- Settles O51: `iteration_log_clock`, read through the snapshot that the iteration carries. -/
theorem iterationActuatesSnapshot : Obligations.IterationActuatesSnapshot := by
  unfold Obligations.IterationActuatesSnapshot
  intro s hl hs hreset
  have hr (k : Nat) (hk : k ≤ 3) : (clockNext^[k] s).inp.rst = false :=
    hreset k _ hk ((runsTo_iff_iterate hl).mpr rfl)
  have hr3 := hr 3 le_rfl
  obtain ⟨⟨hcfg, hstate, hiter, hsnapshot⟩, hcommands, houtputs⟩ :=
    iteration_log_clock hs fun k hk => hr k hk.le
  refine ⟨clockNext^[3] s, (runsTo_iff_iterate hl).mpr rfl, ?_⟩
  generalize clockNext^[3] s = t at *
  have hw1 : t.snapW.ch1 = (s.unit .ch1).width := (hsnapshot .ch1).1
  have hw2 : t.snapW.ch2 = (s.unit .ch2).width := (hsnapshot .ch2).1
  have hw3 : t.snapW.ch3 = (s.unit .ch3).width := (hsnapshot .ch3).1
  refine ⟨hstate, hiter, hsnapshot, ?on, ?bright, ?color, ?hue, ?valid⟩
  case on => rw [houtputs.on, hcommands.on, hcfg, hw1]
  case bright => rw [houtputs.bright, hcommands.bright, hcfg, hw2]
  case color => rw [houtputs.color, hcommands.color, hcfg, hw3]
  case hue => rw [hcommands.hue, hcfg, hw3]
  case valid => simp [dbgValid_iff, hr3, hstate, iterationCode, anyChanged_iff_exists, hsnapshot]

/-- In an iteration without reset, whose wait is not due before clock `k`, clock `k` is `IterationClock`. -/
theorem iterationClock_iterate {s : State} (hs : s.state = fsmSnap) {k : Nat}
    (hclocks : ∀ j, j ≤ k → (clockNext^[j] s).inp.rst = false ∧
      (4 ≤ j → subMod s.cfg.tsW (clockNext^[j] s).now s.now < s.cfg.cadenceUs)) :
    IterationClock s (k + 1) (clockNext^[k + 1] s) := by
  induction k with
  | zero => exact iterationClock_one (hclocks 0 le_rfl).1 hs
  | succ k ih =>
    obtain ⟨hr, hearly⟩ := hclocks (k + 1) le_rfl
    rw [Function.iterate_succ_apply']
    exact (ih fun j hj => hclocks j (Nat.le_succ_of_le hj)).succ hr hearly

/-- The iteration's length for any timebase (R83): the S_SNAP clock follows the first clock from 4 on in which the wait
is due. -/
theorem iteration_period {n : Nat} {s t : State} (hs : s.state = fsmSnap) (hn : 4 ≤ n) (hrun : RunsTo (n + 1) s t)
    (hclocks : ∀ k u, k ≤ n → RunsTo k s u → u.inp.rst = false ∧
      (4 ≤ k → (s.cfg.cadenceUs ≤ subMod s.cfg.tsW u.now s.now ↔ k = n))) :
    t.state = fsmSnap ∧ ∀ k u, 0 < k → k ≤ n → RunsTo k s u → u.state ≠ fsmSnap := by
  have hl := legal_of_run hrun
  have hiterate (k : Nat) (hk : k ≤ n) := hclocks k _ hk ((runsTo_iff_iterate hl).mpr rfl)
  have hclock (k : Nat) (hk : k < n) : IterationClock s (k + 1) (clockNext^[k + 1] s) := by
    refine iterationClock_iterate hs fun j hj => ?_
    obtain ⟨hr, hdue⟩ := hiterate j (by omega)
    exact ⟨hr, fun h4 => Nat.lt_of_not_le fun hle => absurd ((hdue h4).mp hle) (by omega)⟩
  constructor
  · obtain ⟨m, rfl⟩ : ∃ m, n = m + 4 := ⟨n - 4, by omega⟩
    obtain ⟨hr, hdue⟩ := hiterate (m + 4) le_rfl
    obtain ⟨hcfg, hwait, hiter, -⟩ := hclock (m + 3) (by omega)
    rw [(runsTo_iff_iterate hl).mp hrun, Function.iterate_succ_apply']
    refine clockNext_state_of_due hr hwait ?_
    rw [hcfg, hiter]
    exact (hdue hn).mpr rfl
  · intro k u hpos hk hrun
    obtain ⟨j, rfl⟩ := Nat.exists_eq_succ_of_ne_zero hpos.ne'
    rw [(runsTo_iff_iterate hl).mp hrun, (hclock j hk).state]
    exact iterationCode_succ_ne_snap j

/-- Settles O52: `iteration_period`, whose due clock at one microsecond a clock is clock `CADENCE_US`. -/
theorem iterationPeriod : Obligations.IterationPeriod := by
  unfold Obligations.IterationPeriod
  refine ⟨fun n s t => iteration_period, fun s t hs hcadence hrun hharness => ?_⟩
  have hfits := ((legal_iff _).mp (legal_of_run hrun)).cadenceFits
  refine iteration_period hs hcadence hrun fun k u hk hu => ?_
  obtain ⟨hr, hnow⟩ := hharness k u hk hu
  refine ⟨hr, fun _ => ?_⟩
  rw [hnow, subMod_truncate_add_self _ _ _ (by omega)]
  omega

/-! ### Snapshots recur (R84) -/

/-- The clocks without reset, at most, from a state code until S_WAIT (R49, R67). -/
def clocksToWait (code : FsmCode) : Nat :=
  if code = fsmWait then 0
  else if code = fsmSnap then 4
  else if code = fsmDerive then 3
  else if code = fsmApply then 2
  else 1

theorem clocksToWait_le (code : FsmCode) : clocksToWait code ≤ 4 := by
  revert code
  decide

theorem clocksToWait_eq_zero_iff {code : FsmCode} : clocksToWait code = 0 ↔ code = fsmWait := by
  revert code
  decide

/-- Every clock without reset outside S_WAIT brings it one clock nearer. -/
theorem clocksToWait_clockNext {s : State} (hr : s.inp.rst = false) (hs : s.state ≠ fsmWait) :
    clocksToWait (clockNext s).state + 1 = clocksToWait s.state := by
  have hcode : ∀ code : FsmCode, code = fsmWait ∨ code = fsmSnap ∨ code = fsmDerive ∨ code = fsmApply ∨
      code = fsmLog ∨ code = 0b101#3 ∨ code = 0b110#3 ∨ code = 0b111#3 := by decide
  obtain h | h | h | h | h | h := hcode s.state
  · exact absurd h hs
  · rw [clockNext_state_of_snap hr h, h]; rfl
  · rw [clockNext_state_of_derive hr h, h]; rfl
  · rw [clockNext_state_of_apply hr h, h]; rfl
  · rw [clockNext_state_of_log hr h, h]; rfl
  · rw [clockNext_state_of_reserved hr h]
    obtain h | h | h := h
    all_goals rw [h]; rfl

/-- A state without reset reaches S_WAIT after `clocksToWait` clocks. -/
theorem iterate_clocksToWait {n : Nat} {s : State} (hn : clocksToWait s.state = n)
    (hr : ∀ k, k < n → (clockNext^[k] s).inp.rst = false) : (clockNext^[n] s).state = fsmWait := by
  induction n generalizing s with
  | zero => exact clocksToWait_eq_zero_iff.mp hn
  | succ n ih =>
    have hs : s.state ≠ fsmWait := fun h => by simp [clocksToWait_eq_zero_iff.mpr h] at hn
    have hnext : clocksToWait (clockNext s).state + 1 = clocksToWait s.state :=
      clocksToWait_clockNext (hr 0 n.succ_pos) hs
    exact ih (by omega) fun k hk => hr (k + 1) (Nat.succ_lt_succ hk)

/-- The clock is without reset, and the timebase advances in it within R15's contract. -/
structure TimeAdvances (s : State) : Prop where
  noReset : s.inp.rst = false
  contract : TimebaseContract s (clockNext s)
  moves : (clockNext s).now ≠ s.now

/-- Two different numbers of a width are a distance above 0 apart. -/
theorem subMod_pos_of_ne {n a b : Nat} (ha : a < 2 ^ n) (hb : b < 2 ^ n) (h : a ≠ b) : 0 < subMod n a b := by
  refine Nat.pos_of_ne_zero fun hzero => h ?_
  have hmod : ((a : ℤ) - b) % 2 ^ n = 0 := by rw [← subMod_cast, hzero, Nat.cast_zero]
  have hcongr : (a : ℤ) % 2 ^ n = b % 2 ^ n := Int.emod_eq_emod_iff_emod_sub_eq_zero.mpr hmod
  rw [Int.emod_eq_of_lt (Int.natCast_nonneg a) (by exact_mod_cast ha),
    Int.emod_eq_of_lt (Int.natCast_nonneg b) (by exact_mod_cast hb)] at hcongr
  exact_mod_cast hcongr

/-- A timestamp of a legal build has a bit: the cadence is above 0 and fits it (R9). -/
theorem tsW_pos {c : Config} (hl : c.legal = true) : 0 < c.tsW := by
  have hc := (legal_iff c).mp hl
  have hpos := hc.cadencePos
  have hfits := hc.cadenceFits
  refine Nat.pos_of_ne_zero fun hzero => ?_
  rw [hzero] at hfits
  omega

/-- While the time since the snapshot is below the cadence, an advancing clock adds to it: half the range bounds each of
the two (R15), so their sum does not wrap. -/
theorem elapsed_lt_of_timeAdvances {s : State} (h : TimeAdvances s) (hl : s.cfg.legal = true) {a : Nat}
    (hhalf : s.cfg.cadenceUs ≤ 2 ^ (s.cfg.tsW - 1)) (hearly : subMod s.cfg.tsW s.now a < s.cfg.cadenceUs) :
    subMod s.cfg.tsW s.now a < subMod s.cfg.tsW (clockNext s).now a := by
  obtain ⟨-, hcontract, hne⟩ := h
  have hpos : 0 < s.cfg.tsW := tsW_pos hl
  have hpow := Nat.two_pow_pred_add_two_pow_pred hpos
  have hnow : (clockNext s).now < 2 ^ s.cfg.tsW := clockNext_cfg s ▸ now_lt (clockNext s)
  have hadvance := subMod_pos_of_ne hnow (now_lt s) hne
  have hbound : subMod s.cfg.tsW (clockNext s).now s.now < 2 ^ (s.cfg.tsW - 1) := hcontract
  rw [subMod_add (a := (clockNext s).now) (b := s.now) (c := a) (by omega)]
  omega

/-- From S_WAIT, an S_SNAP clock comes when at most `n` clocks of one microsecond or more are missing to the cadence. -/
theorem exists_snap_of_wait {n : Nat} {s : State} (hl : s.cfg.legal = true)
    (hhalf : s.cfg.cadenceUs ≤ 2 ^ (s.cfg.tsW - 1)) (hs : s.state = fsmWait)
    (hadv : ∀ k, k ≤ n → TimeAdvances (clockNext^[k] s))
    (hn : s.cfg.cadenceUs ≤ subMod s.cfg.tsW s.now s.iterStart + n) :
    ∃ k, 0 < k ∧ k ≤ n + 1 ∧ (clockNext^[k] s).state = fsmSnap := by
  induction n generalizing s with
  | zero => exact ⟨1, one_pos, le_rfl, clockNext_state_of_due (hadv 0 le_rfl).noReset hs hn⟩
  | succ n ih =>
    have hfirst : TimeAdvances s := hadv 0 (Nat.zero_le _)
    by_cases hdue : s.cfg.cadenceUs ≤ subMod s.cfg.tsW s.now s.iterStart
    · exact ⟨1, one_pos, by omega, clockNext_state_of_due hfirst.noReset hs hdue⟩
    · have hearly := Nat.lt_of_not_le hdue
      have hmore := elapsed_lt_of_timeAdvances hfirst hl hhalf hearly
      obtain ⟨-, -, hiter⟩ := clockNext_snapshot_unchanged hfirst.noReset (by simp [hs])
      obtain ⟨k, hpos, hk, hsnap⟩ := ih (s := clockNext s) (by rwa [clockNext_cfg]) (by rwa [clockNext_cfg])
        (clockNext_state_of_early hfirst.noReset hs hearly) (fun k hk => hadv (k + 1) (Nat.succ_le_succ hk))
        (by rw [clockNext_cfg, hiter]; omega)
      exact ⟨k + 1, k.succ_pos, Nat.succ_le_succ hk, hsnap⟩

/-- Settles O53: at most four clocks lead to S_WAIT, and at most `CADENCE_US + 1` from there to S_SNAP. -/
theorem snapshotsRecur : Obligations.SnapshotsRecur := by
  unfold Obligations.SnapshotsRecur
  intro s t hhalf hrun htime
  have hl := legal_of_run hrun
  have hl' (k : Nat) : (clockNext^[k] s).cfg.legal = true := by rwa [iterate_clockNext_cfg]
  have hadv (k : Nat) (hk : k < s.cfg.cadenceUs + 5) : TimeAdvances (clockNext^[k] s) :=
    let ⟨hr, hcontract, hmoves⟩ := htime k _ _ hk ((runsTo_iff_iterate hl).mpr rfl) (step_legal (hl' k))
    ⟨hr, hcontract, hmoves⟩
  obtain ⟨m, hm⟩ : ∃ m, clocksToWait s.state = m := ⟨_, rfl⟩
  have hm4 : m ≤ 4 := hm ▸ clocksToWait_le s.state
  have hwait := iterate_clocksToWait hm fun k hk => (hadv k (by omega)).noReset
  obtain ⟨k, hpos, hk, hsnap⟩ := exists_snap_of_wait (n := s.cfg.cadenceUs) (hl' m)
    (by rwa [iterate_clockNext_cfg]) hwait
    (fun k hk => by rw [← Function.iterate_add_apply]; exact hadv (k + m) (by omega))
    (by rw [iterate_clockNext_cfg]; exact Nat.le_add_left _ _)
  rw [← Function.iterate_add_apply] at hsnap
  exact ⟨k + m, _, by omega, by omega, (runsTo_iff_iterate hl).mpr rfl, hsnap⟩

end Sys2Proof.Machine
end

section
/-! PROOFS. The color transform at the defaults: the rows of the six sectors, their exactness over the rationals, and the
properties of the whole transform. -/
namespace Sys2Proof.Machine

/-! ### The sector operations (R88, R89, R91) -/

/-- The residue at the defaults (R87, R88). -/
theorem residueOf_standard {c : Config} (hc : StandardBuild c) (h : Nat) : residueOf c h = h % 360 % 60 := by
  rw [hc]
  rfl

/-- Settles O17: each operation writes its row at the residue of the hue it reads, which `sectorRow_standard` gives. -/
theorem sectorOperations : Obligations.SectorOperations := by
  unfold Obligations.SectorOperations
  rintro s hs _ rfl
  have hresidue : residueOf s.cfg s.hueIn = s.hueIn % 360 % 60 := residueOf_standard hs _
  have hbelow : s.hueIn % 360 % 60 ≤ 60 := (Nat.mod_lt _ (by decide)).le
  obtain ⟨b, eol, f, hcfg⟩ := hs.eq
  have hrows := sectorRow_standard b eol f hbelow
  rw [← hcfg, ← hresidue] at hrows
  obtain ⟨h0, h1, h2, h3, h4, h5⟩ := hrows
  have hwrite {x y : Rgb} (h : x = y) :
      (.next (s.setColor x) : Host.Outcome State Fault Refusal) = .next (s.setColor y) := by rw [h]
  rw [show fHue s.cfg s.snapW.ch3 = s.hueIn from rfl, ← hresidue]
  exact ⟨hwrite h0, hwrite h1, hwrite h2, hwrite h3, hwrite h4, hwrite h5⟩

/-! ### Exactness (R89, R90, R92) -/

/-- The residue modulo 2 of R89, read off a number written as an even number and an offset below 2. -/
theorem sub_two_mul_floor_half {x y : ℚ} (q : ℕ) (hx : x = 2 * q + y) (h0 : 0 ≤ y) (h2 : y < 2) :
    x - 2 * ⌊x / 2⌋ = y := by
  have hfloor : ⌊x / 2⌋ = (q : ℤ) := by
    rw [Int.floor_eq_iff]
    push_cast
    constructor <;> linarith
  rw [hfloor, hx]
  push_cast
  ring

/-- In an even band the construction of R89 rises with the residue. -/
theorem triangle_of_even {n : ℕ} (h : n / 60 % 2 = 0) :
    1 - |((n : ℚ) / 60 - 2 * ⌊(n : ℚ) / 60 / 2⌋) - 1| = ((n % 60 : ℕ) : ℚ) / 60 := by
  have hn : (n : ℚ) = 120 * (n / 120 : ℕ) + (n % 60 : ℕ) := by norm_cast; omega
  have hlt : ((n % 60 : ℕ) : ℚ) < 60 := by exact_mod_cast Nat.mod_lt n (by decide)
  have hnonneg : (0 : ℚ) ≤ (n % 60 : ℕ) := Nat.cast_nonneg _
  rw [sub_two_mul_floor_half (y := (n % 60 : ℕ) / 60) (n / 120) (by rw [hn]; ring) (by linarith) (by linarith),
    abs_of_nonpos (by linarith)]
  ring

/-- In an odd band the construction of R89 falls with the residue. -/
theorem triangle_of_odd {n : ℕ} (h : n / 60 % 2 = 1) :
    1 - |((n : ℚ) / 60 - 2 * ⌊(n : ℚ) / 60 / 2⌋) - 1| = ((60 - n % 60 : ℕ) : ℚ) / 60 := by
  have hn : (n : ℚ) = 120 * (n / 120 : ℕ) + 60 + (n % 60 : ℕ) := by norm_cast; omega
  have hlt : n % 60 < 60 := Nat.mod_lt n (by decide)
  have hltq : ((n % 60 : ℕ) : ℚ) < 60 := by exact_mod_cast hlt
  have hnonneg : (0 : ℚ) ≤ (n % 60 : ℕ) := Nat.cast_nonneg _
  rw [sub_two_mul_floor_half (y := 1 + (n % 60 : ℕ) / 60) (n / 120) (by rw [hn]; ring) (by linarith) (by linarith),
    abs_of_nonneg (by linarith), Nat.cast_sub hlt.le]
  push_cast
  ring

/-- The intensity of `m` sixtieths of the scale 0 to 255, truncated (R90). -/
theorem floor_sixtieths (m : ℕ) : ⌊(m : ℚ) / 60 * 255⌋ = ((17 * m / 4 : ℕ) : ℤ) := by
  have hquotient : (m : ℚ) / 60 * 255 = ((17 * m : ℕ) : ℚ) / ((4 : ℕ) : ℚ) := by
    push_cast
    ring
  rw [hquotient, Rat.floor_natCast_div_natCast]
  rfl

/-- The intensity `xi` of a reduced hue is the rational construction, truncated (R89, R90). -/
theorem xiAt_cast {c : Config} (hc : StandardBuild c) (n : ℕ) :
    (xiAt c (n / 60) (n % 60) : ℤ) = ⌊(1 - |((n : ℚ) / 60 - 2 * ⌊(n : ℚ) / 60 / 2⌋) - 1|) * 255⌋ := by
  obtain ⟨b, eol, f, rfl⟩ := hc.eq
  rw [xiAt_standard b eol f _ (Nat.mod_lt n (by decide)).le]
  rcases Nat.mod_two_eq_zero_or_one (n / 60) with heven | hodd
  · rw [triangle_of_even heven, floor_sixtieths, if_pos heven]
  · rw [triangle_of_odd hodd, floor_sixtieths, if_neg (by omega)]

/-- The rows of R91 by the bands of the reduced hue. -/
theorem sectorRow_band (c : Config) {n : ℕ} (hn : n < 360) (ρ : ℕ) :
    sectorRow c (n / 60) ρ =
      if n < 60 then ⟨chroma c, xiAt c (n / 60) ρ, 0⟩ else if n < 120 then ⟨xiAt c (n / 60) ρ, chroma c, 0⟩
      else if n < 180 then ⟨0, chroma c, xiAt c (n / 60) ρ⟩ else if n < 240 then ⟨0, xiAt c (n / 60) ρ, chroma c⟩
      else if n < 300 then ⟨xiAt c (n / 60) ρ, 0, chroma c⟩ else ⟨chroma c, 0, xiAt c (n / 60) ρ⟩ := by
  split_ifs
  · rw [show n / 60 = 0 by omega]; rfl
  · rw [show n / 60 = 1 by omega]; rfl
  · rw [show n / 60 = 2 by omega]; rfl
  · rw [show n / 60 = 3 by omega]; rfl
  · rw [show n / 60 = 4 by omega]; rfl
  · rw [show n / 60 = 5 by omega]; rfl

/-- Settles O24: the row is that of the hue's band by `sectorRow_band`, and its `xi` is exact by `xiAt_cast`. -/
theorem hsvIsExact : Obligations.HsvIsExact := by
  unfold Obligations.HsvIsExact
  rintro c h hc - n _ _ xi hn rfl rfl hxi
  rw [← xiAt_cast hc, Nat.cast_inj] at hxi
  obtain ⟨b, eol, f, rfl⟩ := hc.eq
  rw [hsv_standard, ← hn, sectorRow_band _ (hn ▸ Nat.mod_lt h (by decide)), ← hxi]
  rfl

/-! ### Properties of the transform (R94) -/

/-- Every row of the table has a component at the top of the scale and one at 0 (R91). -/
theorem sectorRow_extremes (c : Config) {k : ℕ} (hk : k < 6) (ρ : ℕ) :
    ((sectorRow c k ρ).r = chroma c ∨ (sectorRow c k ρ).g = chroma c ∨ (sectorRow c k ρ).b = chroma c) ∧
    ((sectorRow c k ρ).r = 0 ∨ (sectorRow c k ρ).g = 0 ∨ (sectorRow c k ρ).b = 0) := by
  interval_cases k <;> simp [sectorRow]

/-- The upper end of a band is the lower end of the next (R94). -/
theorem sectorRow_boundary {c : Config} (hc : StandardBuild c) {k : ℕ} (hk : k < 6) :
    sectorRow c k 60 = sectorRow c ((k + 1) % 6) 0 := by
  obtain ⟨b, eol, f, rfl⟩ := hc.eq
  interval_cases k <;> rfl

/-- The hue of a band's upper end has the row of that band at its full residue, 360 included (R94). -/
theorem hsv_boundary {c : Config} (hc : StandardBuild c) {k : ℕ} (hk : k < 6) :
    hsv c (60 * (k + 1)) = sectorRow c k 60 := by
  rw [sectorRow_boundary hc hk]
  obtain ⟨b, eol, f, rfl⟩ := hc.eq
  rw [hsv_standard, show 60 * (k + 1) % 360 / 60 = (k + 1) % 6 by omega,
    show 60 * (k + 1) % 360 % 60 = 0 by omega]

/-- `xi` rises in an even band and falls in an odd one (R94). -/
theorem xiAt_monotone {c : Config} (hc : StandardBuild c) (k : ℕ) {ρ ρ' : ℕ} (hle : ρ ≤ ρ') (hρ' : ρ' ≤ 60) :
    (k % 2 = 0 → xiAt c k ρ ≤ xiAt c k ρ') ∧ (k % 2 = 1 → xiAt c k ρ' ≤ xiAt c k ρ) := by
  obtain ⟨b, eol, f, rfl⟩ := hc.eq
  rw [xiAt_standard b eol f k (hle.trans hρ'), xiAt_standard b eol f k hρ']
  constructor
  · intro heven
    rw [if_pos heven, if_pos heven]
    omega
  · intro hodd
    rw [if_neg (by omega), if_neg (by omega)]
    omega

/-- Settles O25: each color is a row of the table, the upper end of a band is the lower end of the next, and the primaries
and secondaries compute. -/
theorem colorProperties : Obligations.ColorProperties := by
  unfold Obligations.ColorProperties
  intro c hc
  refine ⟨fun h => ?_, ?_, ?_, ?_, ?_, ?_, ?_, ?_, fun k hk => ⟨sectorRow_boundary hc hk, hsv_boundary hc hk⟩,
    fun k ρ ρ' _ => xiAt_monotone hc k⟩
  · have hchroma : chroma c = 255 := congrArg Config.intMax hc
    exact hchroma ▸ sectorRow_extremes c (sectorOf_lt hc.legal h) (residueOf c h)
  all_goals
    obtain ⟨b, eol, f, rfl⟩ := hc.eq
    rw [hsv_standard]
    rfl

end Sys2Proof.Machine
end

section
/-! PROOFS. The exceptions family: a legal build neither stops nor is rewritten. -/
namespace Sys2Proof.Machine

/-- No operation writes the build (R33): each updates other fields only, S_WAIT in both of its branches. -/
theorem exec_cfg {i : Instr} {s t : State} (h : exec i s = .next t) : t.cfg = s.cfg := by
  cases i <;> (injection h with h; subst h)
  case capHoldLow i | capHoldHigh i | capRise i | capFall i | capReset i _ _ => exact setUnit_cfg s i _
  case sWait => split <;> rfl
  case sSnap | sDerive | sApply | sLog | fsmReset => rfl
  case fsmReserved5 | fsmReserved67 => exact recover_cfg s
  case sector0 | sector1 | sector2 | sector3 | sector4 | sector5 => exact setColor_cfg s _

/-- Settles O40: `exec_answers_next` and `exec_cfg` for one operation, `step_legal` and `clockNext_cfg` for a clock. -/
theorem legalBuildNeverStops : Obligations.LegalBuildNeverStops := by
  unfold Obligations.LegalBuildNeverStops
  constructor
  · intro i s
    obtain ⟨t, ht⟩ := exec_answers_next i s
    exact ⟨t, ht, exec_cfg ht⟩
  · intro s hl
    exact ⟨clockNext s, step_legal hl, clockNext_cfg s⟩

end Sys2Proof.Machine
end

section
/-! PROOFS. The reset and hazards family: what reset leaves, how an input that was steady or stalls shows in a run, and
that the origin of the timebase does not. -/
namespace Sys2Proof.Machine

/-! ### The two reset operations alone (R107) -/

/-- Settles O9: the operation is one unit update that reads the level and the build only. -/
theorem capResetClearsItsUnit : Obligations.CapResetClearsItsUnit := by
  unfold Obligations.CapResetClearsItsUnit
  intro i p l s
  exact ⟨_, rfl, unit_setUnit_same s i _, onlyUnit_setUnit i s _⟩

/-- Settles O16: the operation is the update of R107. -/
theorem fsmResetClearsControlLoop : Obligations.FsmResetClearsControlLoop := by
  unfold Obligations.FsmResetClearsControlLoop
  exact fun _ _ => rfl

/-! ### The state after reset (R107) -/

theorem reset_legal : State.reset.cfg.legal = true :=
  standard_legal _ _ _

/-- A unit of the state after reset, on every channel. -/
@[simp] theorem reset_unit (i : Channel) : State.reset.unit i = CaptureUnit.reset := by
  cases i <;> rfl

@[simp] theorem reset_snapW_get (i : Channel) : State.reset.snapW.get i = State.reset.neutral := by
  cases i <;> rfl

/-- The registers of the state after reset hold 0 or `W_NEUTRAL`, which fit. -/
theorem reset_registersFit : RegistersFit State.reset := by
  have hneutral := (neutral_inRange reset_legal).fits reset_legal
  have hzero (n : Nat) : 0 < 2 ^ n := Nat.two_pow_pos n
  refine ⟨fun i => ?_, fun i => ?_, hzero _, fun i => ?_, hzero _, hzero _, ⟨hzero _, hzero _, hzero _⟩, hzero _,
    ⟨hzero _, hzero _, hzero _⟩⟩
  · rw [reset_unit]
    exact hzero _
  · rw [reset_unit]
    exact hneutral
  · rw [reset_snapW_get]
    exact hneutral

theorem reset_inv : Inv State.reset := by
  refine ⟨reset_legal, .inr (.inl rfl), reset_registersFit, fun i => ?_, fun i => ?_, fun i _ => ?_⟩
  · rw [reset_unit, reset_snapW_get]
    exact ⟨neutral_inRange reset_legal, neutral_inRange reset_legal⟩
  · rw [reset_unit]
    rfl
  · rw [reset_unit]
    rfl

/-- Settles O42: S_SNAP asks for no agreement of `InPhase`, and the commands and the outputs are dark. -/
theorem resetSatisfiesInvariants : Obligations.ResetSatisfiesInvariants := by
  unfold Obligations.ResetSatisfiesInvariants
  have hsnap : State.reset.state = fsmSnap := rfl
  exact ⟨reset_inv, ⟨.inr (.inl hsnap), by simp [hsnap], by simp [hsnap]⟩,
    ⟨reset_legal, Nat.zero_le _, .inl rfl, .inl rfl, .inl rfl, .inl rfl⟩⟩

/-! ### A reset clock (R80, R107) -/

/-- The control loop after a reset clock (R107). -/
theorem fsmNext_reset {s : State} (hr : s.inp.rst = true) :
    fsmNext s = { s with
      snapW := ⟨s.neutral, s.neutral, s.neutral⟩, snapChg := ⟨false, false, false⟩
      state := fsmSnap, iterStart := 0
      cmdOn := false, cmdBright := 0, cmdHue := 0, cmdR := 0, cmdG := 0, cmdB := 0
      outOn := false, outBright := 0, outR := 0, outG := 0, outB := 0 } :=
  if_pos hr

/-- The port shows no record in a reset clock (R80). -/
theorem dbgValid_of_reset {s : State} (hr : s.inp.rst = true) : s.dbgValid = false := by
  simp [State.dbgValid, hr]

/-- Settles O35: a unit's registers are those of `unitNext_reset`, and the control loop's those of `fsmNext_reset`. -/
theorem resetClock : Obligations.ResetClock := by
  unfold Obligations.ResetClock
  intro s hl hr
  refine ⟨dbgValid_of_reset hr, clockNext s, step_legal hl, fun i => ⟨?unit, ?snapW, ?snapChg⟩, ?loop⟩
  case unit =>
    rw [clockNext_unit, unitNext_reset hr]
    rfl
  case snapW =>
    rw [clockNext_snapW_get, if_pos hr]
    rfl
  case snapChg =>
    rw [clockNext, fsmNext_reset hr]
    cases i <;> rfl
  case loop => simp [clockNext, fsmNext_reset hr]

/-! ### The first iteration (R108, R109) -/

/-- The outputs hold their reset values (R107, R109). -/
structure OutputsDark (s : State) : Prop where
  on : s.outOn = false
  bright : s.outBright = 0
  red : s.outR = 0
  green : s.outG = 0
  blue : s.outB = 0

theorem outputsDark_of_reset {s : State} (hr : s.inp.rst = true) : OutputsDark (clockNext s) := by
  constructor <;> simp [clockNext, fsmNext_reset hr]

/-- Dark outputs stay dark in a clock that does not apply commands. -/
theorem OutputsDark.afterClock {s : State} (h : OutputsDark s) (hr : s.inp.rst = false) (hs : s.state ≠ fsmApply) :
    OutputsDark (clockNext s) := by
  obtain ⟨hon, hbright, hred, hgreen, hblue⟩ := clockNext_outputs_unchanged hr hs
  exact ⟨hon.trans h.on, hbright.trans h.bright, hred.trans h.red, hgreen.trans h.green, hblue.trans h.blue⟩

/-- What `W_NEUTRAL` derives at the defaults (R108). -/
theorem neutral_derivations {c : Config} (hc : StandardBuild c) :
    fOnoff c c.wNeutral = false ∧ fBright c c.wNeutral = 127 ∧ fHue c c.wNeutral = 180 ∧
      hsv c 180 = ⟨0, 255, 255⟩ := by
  obtain ⟨b, eol, f, rfl⟩ := hc.eq
  have hneutral : (Config.standard b eol f).wNeutral = 1500 := rfl
  rw [hneutral, fBright_standard, fHue_standard, hsv_standard]
  exact ⟨rfl, rfl, rfl, rfl⟩

/-- Until it may wait, an iteration's code is decided by the number of its clocks, whatever the timebase (R67). -/
theorem iterate_state_of_snap {s : State} (hs : s.state = fsmSnap) {k : Nat} (hk : k ≤ 4)
    (hr : ∀ j, j < k → (clockNext^[j] s).inp.rst = false) : (clockNext^[k] s).state = iterationCode k := by
  cases k with
  | zero => exact hs
  | succ k => exact (iterationClock_iterate hs fun j hj => ⟨hr j (by omega), fun h4 => by omega⟩).state

/-- Outputs dark in an S_SNAP clock are dark through the S_APPLY clock of its iteration (R76). -/
theorem OutputsDark.untilApply {s : State} (h : OutputsDark s) (hs : s.state = fsmSnap) {k : Nat} (hk : k ≤ 2)
    (hr : ∀ j, j < k → (clockNext^[j] s).inp.rst = false) : OutputsDark (clockNext^[k] s) := by
  induction k with
  | zero => exact h
  | succ k ih =>
    have hr' (j : Nat) (hj : j < k) := hr j (Nat.lt_succ_of_lt hj)
    have hcode := iterate_state_of_snap hs (by omega) hr'
    rw [Function.iterate_succ_apply']
    refine (ih (by omega) hr').afterClock (hr k k.lt_succ_self) ?_
    rw [hcode]
    match k with
    | 0 | 1 => simp [iterationCode]
    | _ + 2 => omega

/-- From an S_SNAP clock to the S_LOG clock of its iteration no record leaves (R78). -/
theorem iterate_emitted_of_snap {s : State} (hs : s.state = fsmSnap) {k : Nat} (hk : k ≤ 3)
    (hr : ∀ j, j < k → (clockNext^[j] s).inp.rst = false) : (clockNext^[k] s).emitted = s.emitted := by
  induction k with
  | zero => rfl
  | succ k ih =>
    have hr' (j : Nat) (hj : j < k) := hr j (Nat.lt_succ_of_lt hj)
    have hcode := iterate_state_of_snap hs (by omega) hr'
    rw [Function.iterate_succ_apply', ← ih (by omega) hr']
    refine clockNext_emitted_unchanged (hr k k.lt_succ_self) ?_
    rw [hcode]
    match k with
    | 0 | 1 | 2 => simp [iterationCode]
    | _ + 3 => omega

/-- No record leaves in a clock whose `dbg_valid` is 0 (R80). -/
theorem clockNext_emitted_of_not_dbgValid {s : State} (h : s.dbgValid = false) :
    (clockNext s).emitted = s.emitted := by
  simp [clockNext_emitted, h]

/-- Every unit holds `W_NEUTRAL` and no flag after a reset clock (R107). -/
theorem clockNext_unit_of_reset {s : State} (hr : s.inp.rst = true) (i : Channel) :
    ((clockNext s).unit i).width = s.cfg.wNeutral ∧ ((clockNext s).unit i).changed = false := by
  rw [clockNext_unit, unitNext_reset hr]
  exact ⟨rfl, rfl⟩

/-- The S_LOG clock of the iteration after a reset clock shows what `W_NEUTRAL` derives, and no record is due (R108). -/
theorem first_log_clock_neutral {s t : State} (hc : StandardBuild s.cfg) (hr : s.inp.rst = true)
    (hclock : IterationClock (clockNext s) 3 t) (hcommands : CommandsMatch t) (houtputs : OutputsMatch t) :
    t.state = fsmLog ∧ t.outOn = false ∧ t.outBright = 127 ∧ t.cmdHue = 180 ∧
      t.outR = 0 ∧ t.outG = 255 ∧ t.outB = 255 ∧ t.dbgValid = false := by
  obtain ⟨hcfg, hstate, -, hsnapshot⟩ := hclock
  have hcfg' : t.cfg = s.cfg := hcfg.trans (clockNext_cfg s)
  have hwidth (i : Channel) : t.snapW.get i = s.cfg.wNeutral :=
    (hsnapshot i).1.trans (clockNext_unit_of_reset hr i).1
  have hflag (i : Channel) : t.snapChg.get i = false := (hsnapshot i).2.trans (clockNext_unit_of_reset hr i).2
  have hw1 : t.snapW.ch1 = s.cfg.wNeutral := hwidth .ch1
  have hw2 : t.snapW.ch2 = s.cfg.wNeutral := hwidth .ch2
  have hw3 : t.snapW.ch3 = s.cfg.wNeutral := hwidth .ch3
  obtain ⟨hon, hbright, hhue, hcolor⟩ := neutral_derivations hc
  have hrgb : (⟨t.outR, t.outG, t.outB⟩ : Rgb) = ⟨0, 255, 255⟩ := by
    rw [houtputs.color, hcommands.color, hcfg', hw3, hhue, hcolor]
  obtain ⟨hred, hgreen, hblue⟩ := Rgb.mk.inj hrgb
  refine ⟨hstate, ?on, ?bright, ?hue, hred, hgreen, hblue, ?valid⟩
  case on => rw [houtputs.on, hcommands.on, hcfg', hw1, hon]
  case bright => rw [houtputs.bright, hcommands.bright, hcfg', hw2, hbright]
  case hue => rw [hcommands.hue, hcfg', hw3, hhue]
  case valid =>
    have hnone : ¬ t.anyChanged = true := by simp [anyChanged_iff_exists, hflag]
    simp [State.dbgValid, hnone]

/-- Settles O55: clock 1 is an S_SNAP clock on reset registers, so clock 4 is `first_log_clock_neutral`. -/
theorem firstIterationIsNeutral : Obligations.FirstIterationIsNeutral := by
  unfold Obligations.FirstIterationIsNeutral
  intro s hc hr hreset
  have hrun (k : Nat) : RunsTo k s (clockNext^[k] s) := (runsTo_iff_iterate hc.legal).mpr rfl
  have hr' (k : Nat) (hk : k < 4) : (clockNext^[k] (clockNext s)).inp.rst = false :=
    hreset (k + 1) _ (by omega) (by omega) (hrun (k + 1))
  have hsnap := clockNext_state_of_reset hr
  obtain ⟨hclock, hcommands, houtputs⟩ := iteration_log_clock hsnap fun k hk => hr' k (by omega)
  have hlog := first_log_clock_neutral hc hr hclock hcommands houtputs
  refine ⟨fun k t h1 h3 ht => ?dark, ⟨_, hrun 4, hlog⟩, ⟨_, hrun 5, ?wait, ?emitted⟩⟩
  case dark =>
    obtain ⟨j, rfl⟩ := Nat.exists_eq_add_of_le' h1
    obtain rfl := (runsTo_iff_iterate hc.legal).mp ht
    obtain ⟨hon, hbright, hred, hgreen, hblue⟩ := (outputsDark_of_reset hr).untilApply hsnap (k := j) (by omega)
      fun k hk => hr' k (by omega)
    exact ⟨hon, hbright, hred, hgreen, hblue⟩
  case wait => exact iterate_state_of_snap hsnap (k := 4) le_rfl hr'
  case emitted =>
    obtain ⟨-, -, -, -, -, -, -, hvalid⟩ := hlog
    calc (clockNext^[5] s).emitted
      _ = (clockNext^[3] (clockNext s)).emitted := clockNext_emitted_of_not_dbgValid hvalid
      _ = (clockNext s).emitted := iterate_emitted_of_snap hsnap le_rfl fun k hk => hr' k (by omega)
      _ = s.emitted := clockNext_emitted_of_not_dbgValid (dbgValid_of_reset hr)

/-! ### Steady lines through a reset (R110) -/

/-- A clock keeps the number of stages (R18). -/
theorem stages_of_step {s t : State} (h : step s = .next t) (i : Channel) :
    (t.unit i).sync.stages = (s.unit i).sync.stages := by
  obtain ⟨-, rfl⟩ := step_next h
  rw [clockNext_unit]
  exact Synchroniser.stages_shift _ _

/-- Settles O56: the level of the last reset clock, which `prev_level[i]` takes, and the level after it are the line one
synchroniser delay before, in the first and the second reset clock. -/
theorem resetHoldSettles : Obligations.ResetHoldSettles := by
  unfold Obligations.ResetHoldSettles
  intro s t lines hstages hrun hsteady i
  obtain ⟨hsample, hdelay⟩ := synchroniserDelay
  obtain ⟨u, hfirst, hrest⟩ := run_succ.mp hrun
  obtain ⟨v, hrun', hlast⟩ := run_succ_last.mp hrun
  have hpos : 0 < s.cfg.syncStages := hstages i ▸ Nat.succ_pos _
  have hlines : u.inp.pwmIn = s.inp.pwmIn := by
    rw [hsteady.head.2, ((hsteady.tail hfirst) 0 hpos u (run_zero u)).2]
  have hlvl : t.lvl i = lineOf s.inp i := by
    rw [hdelay u t i (by rwa [stages_of_step hfirst, hstages]), lineOf_congr hlines]
  have hprev : (t.unit i).prevLevel = lineOf s.inp i := by
    rw [(hsample v t i hlast).2, hdelay s v i (by rwa [hstages])]
  exact ⟨hprev.trans hlvl.symm, hlvl⟩

/-! ### A stalled timebase (R118) -/

/-- `t` is in S_WAIT with the registers that S_SNAP and S_APPLY write as `s` has them, in the same build. -/
structure WaitsWith (s t : State) : Prop where
  cfg : t.cfg = s.cfg
  state : t.state = fsmWait
  iterStart : t.iterStart = s.iterStart
  snapW : t.snapW = s.snapW
  on : t.outOn = s.outOn
  bright : t.outBright = s.outBright
  red : t.outR = s.outR
  green : t.outG = s.outG
  blue : t.outB = s.outB

/-- A wait that is not due at the stalled time is not due in the next clock either, and S_WAIT writes nothing (R79). -/
theorem WaitsWith.of_step {s : State} (hearly : subMod s.cfg.tsW s.now s.iterStart < s.cfg.cadenceUs) (u v : State)
    (h : WaitsWith s u) (hq : u.inp.rst = false ∧ u.now = s.now) (hstep : step u = .next v) : WaitsWith s v := by
  obtain ⟨hcfg, hwait, hiter, hsnapW, hon, hbright, hred, hgreen, hblue⟩ := h
  obtain ⟨hr, hnow⟩ := hq
  obtain ⟨-, rfl⟩ := step_next hstep
  obtain ⟨hsnapW', -, hiter'⟩ := clockNext_snapshot_unchanged hr (by simp [hwait])
  obtain ⟨hon', hbright', hred', hgreen', hblue'⟩ := clockNext_outputs_unchanged hr (by simp [hwait])
  have hearly' : subMod u.cfg.tsW u.now u.iterStart < u.cfg.cadenceUs := by rwa [hcfg, hnow, hiter]
  exact ⟨(clockNext_cfg u).trans hcfg, clockNext_state_of_early hr hwait hearly', hiter'.trans hiter,
    hsnapW'.trans hsnapW, hon'.trans hon, hbright'.trans hbright, hred'.trans hred, hgreen'.trans hgreen,
    hblue'.trans hblue⟩

/-- Settles O57: `WaitsWith s` holds along the run. -/
theorem stalledTimebaseFreezes : Obligations.StalledTimebaseFreezes := by
  unfold Obligations.StalledTimebaseFreezes
  intro n s t hwait hearly hrun hstall
  obtain ⟨-, hstate, hiter, hsnapW, hon, hbright, hred, hgreen, hblue⟩ :=
    run_induction_while (WaitsWith.of_step hearly) n s t ⟨rfl, hwait, rfl, rfl, rfl, rfl, rfl, rfl, rfl⟩ hrun hstall
  exact ⟨hstate, hiter, hsnapW, hon, hbright, hred, hgreen, hblue⟩

/-! ### The origin of the timebase (R112) -/

/-- A timestamp of `n` bits moved by `d`. -/
def movedBy (n d a : Nat) : Nat :=
  truncate n (a + d)

@[simp] theorem shiftTime_unit (d : Nat) (s : State) (i : Channel) :
    (shiftTime d s).unit i = { s.unit i with riseTs := movedBy s.cfg.tsW d (s.unit i).riseTs } := by
  cases i <;> rfl

@[simp] theorem shiftTime_lvl (d : Nat) (s : State) (i : Channel) : (shiftTime d s).lvl i = s.lvl i := by
  simp [State.lvl]

/-- The port's value moves as a timestamp does. -/
theorem shiftTime_now (d : Nat) (s : State) : (shiftTime d s).now = movedBy s.cfg.tsW d s.now :=
  (Nat.mod_add_mod _ _ _).symm

@[simp] theorem shiftTime_capPub (d : Nat) (s : State) (i : Channel) : (shiftTime d s).capPub i = s.capPub i := by
  have hr : (shiftTime d s).inp.rst = s.inp.rst := rfl
  simp [State.capPub, hr]

/-- The delta to a rise is a difference of two moved times. -/
@[simp] theorem shiftTime_elapsed (d : Nat) (s : State) (i : Channel) : (shiftTime d s).elapsed i = s.elapsed i := by
  rw [State.elapsed, shiftTime_now, shiftTime_unit]
  exact subMod_truncate_add _ _ _ _

@[simp] theorem shiftTime_published (d : Nat) (s : State) (i : Channel) :
    (shiftTime d s).published i = s.published i := by
  rw [published_eq, published_eq, shiftTime_elapsed, shiftTime_unit]
  rfl

/-- The wait since the snapshot is a difference of two moved times. -/
@[simp] theorem shiftTime_cadenceDue (d : Nat) (s : State) : (shiftTime d s).cadenceDue = s.cadenceDue := by
  rw [State.cadenceDue, shiftTime_now]
  exact congrArg (fun e => decide (s.cfg.cadenceUs ≤ e)) (subMod_truncate_add _ _ _ _)

/-- A unit's clock commutes with moving the timestamps: it copies the port's value or keeps the rise time. -/
theorem unitNext_shiftTime {s : State} (hr : s.inp.rst = false) (d : Nat) (i : Channel) :
    unitNext (shiftTime d s) i =
      { unitNext s i with riseTs := movedBy s.cfg.tsW d (unitNext s i).riseTs } := by
  have hr' : (shiftTime d s).inp.rst = false := hr
  have hline : lineOf (shiftTime d s).inp i = lineOf s.inp i := lineOf_congr rfl i
  have hstate : (shiftTime d s).state = s.state := rfl
  simp only [unitNext, shiftTime_unit, shiftTime_lvl, shiftTime_now, shiftTime_published, shiftTime_capPub, hr, hr',
    hline, hstate, Bool.false_eq_true, if_false, apply_ite (movedBy s.cfg.tsW d)]

/-- The control loop's clock commutes with moving the timestamps: S_SNAP copies the port's value, S_WAIT decides by
`shiftTime_cadenceDue`, and the other operations neither read nor write a timestamp. -/
theorem fsmNext_shiftTime {s : State} (hr : s.inp.rst = false) (d : Nat) :
    fsmNext (shiftTime d s) = shiftTime d (fsmNext s) := by
  have hr' : (shiftTime d s).inp.rst = false := hr
  have hstate : (shiftTime d s).state = s.state := rfl
  simp only [fsmNext, hr, hr', hstate, shiftTime_cadenceDue, Bool.false_eq_true, if_false, apply_ite (shiftTime d)]
  refine ite_congr rfl (fun _ => ?snap) fun _ => ite_congr rfl (fun _ => ?derive) fun _ =>
    ite_congr rfl (fun _ => ?apply) fun _ => ite_congr rfl (fun _ => ?log) fun _ =>
    ite_congr rfl (fun _ => ?wait) fun _ => ?reserved
  case snap =>
    rw [shiftTime_now]
    rfl
  case derive => rfl
  case apply => rfl
  case log => rfl
  case wait => rfl
  case reserved => rfl

/-- The next inputs move with the listed ones. -/
theorem drawInputs_shiftTime {s : State} (h : s.stimulus ≠ []) (d : Nat) :
    (shiftTime d s).drawInputs = { s.drawInputs with timeUs := s.drawInputs.timeUs + d } := by
  obtain ⟨x, xs, hx⟩ := List.exists_cons_of_ne_nil h
  rw [drawInputs_cons hx]
  refine drawInputs_cons (xs := xs.map fun x => { x with timeUs := x.timeUs + d }) ?_
  simp [shiftTime, hx]

/-- A clock commutes with moving the timestamps when the next inputs are listed. -/
theorem clockNext_shiftTime {s : State} (hr : s.inp.rst = false) (hlisted : s.stimulus ≠ []) (d : Nat) :
    clockNext (shiftTime d s) = shiftTime d (clockNext s) := by
  have hcap (i : Channel) : unitNext (shiftTime d s) i =
      { unitNext s i with riseTs := movedBy (clockNext s).cfg.tsW d (unitNext s i).riseTs } := by
    rw [unitNext_shiftTime hr, clockNext_cfg]
  have htail : (shiftTime d s).stimulus.tail = s.stimulus.tail.map fun x => { x with timeUs := x.timeUs + d } :=
    List.map_tail.symm
  rw [clockNext, fsmNext_shiftTime hr, hcap, hcap, hcap, drawInputs_shiftTime hlisted, htail]
  rfl

/-- Settles O58: the move keeps the build, so both states step by `clockNext`, which commutes with the move. -/
theorem timeOriginDoesNotMatter : Obligations.TimeOriginDoesNotMatter := by
  unfold Obligations.TimeOriginDoesNotMatter
  intro d s t hr hlisted hstep
  obtain ⟨hl, rfl⟩ := step_next hstep
  rw [← clockNext_shiftTime hr hlisted]
  exact step_legal (s := shiftTime d s) hl

end Sys2Proof.Machine
end

section
/-! PROOFS. The opcode map as data (30_encoding.md section 8): its rows share no word, and a word selects an operation
exactly when a row covers it. -/
namespace Sys2Proof.Machine

/-! ### The rows as sets of words -/

/-- What it means for a row to cover a word. -/
theorem covers_iff {r : OpcodeRow} {f : Format} {w : Nat} :
    r.covers f w = true ↔ r.format = f ∧ w &&& r.mask = r.matchBits := by
  simp [OpcodeRow.covers]

/-- Two rows that share a word are of one format and agree on the bits both of them fix. -/
theorem agree_of_covers {r r' : OpcodeRow} {f : Format} {w : Nat} (h : r.covers f w = true)
    (h' : r'.covers f w = true) :
    r.format = r'.format ∧ r.matchBits &&& r'.mask = r'.matchBits &&& r.mask := by
  obtain ⟨hformat, hbits⟩ := covers_iff.mp h
  obtain ⟨hformat', hbits'⟩ := covers_iff.mp h'
  refine ⟨hformat.trans hformat'.symm, ?_⟩
  rw [← hbits, ← hbits', Nat.and_right_comm]

/-- No two rows of the opcode map agree on the bits both of them fix. -/
theorem opcodeRows_eq_of_agree : ∀ r ∈ opcodeRows, ∀ r' ∈ opcodeRows,
    r.format = r'.format ∧ r.matchBits &&& r'.mask = r'.matchBits &&& r.mask → r' = r := by
  decide

/-- A word belongs to at most one row of the opcode map. -/
theorem opcodeRows_eq_of_covers {r r' : OpcodeRow} {f : Format} {w : Nat} (hr : r ∈ opcodeRows)
    (hr' : r' ∈ opcodeRows) (h : r.covers f w = true) (h' : r'.covers f w = true) : r' = r :=
  opcodeRows_eq_of_agree r hr r' hr' (agree_of_covers h h')

/-! ### The decoder against the rows -/

/-- The row of an operation's mnemonic covers its encoding. -/
theorem tableRow_statement : ∀ i : Instr, Laws.TableRow.Statement i
  | .capHoldLow i => Laws.TableRow.capHoldLow i
  | .capRise i => Laws.TableRow.capRise i
  | .capFall i => Laws.TableRow.capFall i
  | .capHoldHigh i => Laws.TableRow.capHoldHigh i
  | .capReset i prevLevel lvl => Laws.TableRow.capReset i prevLevel lvl
  | .sWait => Laws.TableRow.sWait
  | .sSnap => Laws.TableRow.sSnap
  | .sDerive => Laws.TableRow.sDerive
  | .sApply => Laws.TableRow.sApply
  | .sLog => Laws.TableRow.sLog
  | .fsmReserved5 => Laws.TableRow.fsmReserved5
  | .fsmReserved67 low => Laws.TableRow.fsmReserved67 low
  | .fsmReset code => Laws.TableRow.fsmReset code
  | .sector0 => Laws.TableRow.sector0
  | .sector1 => Laws.TableRow.sector1
  | .sector2 => Laws.TableRow.sector2
  | .sector3 => Laws.TableRow.sector3
  | .sector4 => Laws.TableRow.sector4
  | .sector5 => Laws.TableRow.sector5

/-- A word that selects an operation is covered by a row of the operation's mnemonic. -/
theorem exists_row_of_decode {x : Selector} {i : Instr} (h : decode x = .ok i) :
    ∃ r ∈ opcodeRows, r.covers x.format x.toNat = true ∧ r.mnemonic = i.mnemonic := by
  obtain ⟨-, r, hr, hname, hcovers⟩ := tableRow_statement i
  rw [encode_of_decode h] at hcovers
  exact ⟨r, hr, hcovers, hname⟩

/-- No row covers a `SECSEL` word that selects no operation (R51). -/
theorem not_covers_of_decodeSec_error : ∀ word : BitVec 3, (decodeSec word).toOption = none →
    ∀ r ∈ opcodeRows, r.covers .secsel word.toNat = false := by
  decide

/-- No row covers a word the decoder rejects. -/
theorem not_covers_of_decode_error {x : Selector} {e : DecodeError} (h : decode x = .error e) :
    ∀ r ∈ opcodeRows, r.covers x.format x.toNat = false := by
  cases x with
  | cap unit word => simp [decode] at h
  | fsm word => simp [decode] at h
  | sec word =>
    have hsec : decodeSec word = .error e := h
    exact not_covers_of_decodeSec_error word (by rw [hsec]; rfl)

/-- Settles O2: an operation's row covers its encoding, no two rows share a word, and the rejected words lie outside
every row. -/
theorem decoderFollowsOpcodeMap : Obligations.DecoderFollowsOpcodeMap := by
  unfold Obligations.DecoderFollowsOpcodeMap
  constructor
  · intro x i hdec
    obtain ⟨r, hr, hcovers, hname⟩ := exists_row_of_decode hdec
    exact ⟨r, hr, hcovers, hname, fun _ hr' => opcodeRows_eq_of_covers hr hr' hcovers⟩
  · intro x
    refine ⟨fun ⟨_, herr⟩ => not_covers_of_decode_error herr, fun hnone => ?_⟩
    cases hdec : decode x with
    | error e => exact ⟨e, rfl⟩
    | ok i =>
      obtain ⟨r, hr, hcovers, -⟩ := exists_row_of_decode hdec
      exact absurd hcovers (by simp [hnone r hr])

end Sys2Proof.Machine
end
